-- ==== Sys2Proof/Word.lean ====
section
/-! DEFINITION. The word types of the block (00_scope.md R11): every value is unsigned. -/

namespace Sys2Proof

/-- A waveform sample (u8). -/
abbrev Byte := BitVec 8

/-- A u16: a duty (0 = off, 0xFFFF = full on), a level, the phase. -/
abbrev Half := BitVec 16

/-- A u32: a command, event or response word, FAULT_INFO. -/
abbrev Word := BitVec 32

/-- A waveform index: the ROM's index space is 7 bits wide (10_state.md R32). -/
abbrev Index := BitVec 7

/-- One of the five PWM channels, 0 to 4 (00_scope.md R6, 10_state.md R34). -/
abbrev Channel := Fin 5

end Sys2Proof
end

