-- ==== Sys2Proof/Config.lean ====
section
/-! DEFINITION. What the spec leaves as parameters (00_scope.md R7 to R10, 20_memory.md R56) and what the
environment chooses freely (60_exceptions.md R205, R246, 20_memory.md R53). The constants have no body: no proof can
see a value of one. -/

namespace Sys2Proof

/-- SCALE_VARIANT (R9): which formula scales a waveform sample. -/
inductive ScaleVariant where
  /-- The source's literal formula, the default. -/
  | doc
  /-- The variant from general knowledge, not in the source (log entry 9). -/
  | upstreamX256
  deriving DecidableEq, Repr, Inhabited

/-- One move of the world around the block's two agents (log entry 1): a step of the model is one move. -/
inductive Move where
  /-- The foreground agent takes its next micro-step, or accepts its next command word if it is idle. -/
  | foreground
  /-- The event port delivers this word (30_encoding.md R74). -/
  | event (w : Word)
  /-- The foreground agent decides to issue one more command word, after those it already has (R211). -/
  | drive (w : Word)
  /-- The config store's three inputs change (R33, R53). -/
  | store (level period : Nat) (breathing : Bool)
  /-- Power comes on: the block's one reset (70_reset_and_hazards.md R230). -/
  | powerOn
  deriving DecidableEq, Repr, Inhabited

/-- What the environment does at its n-th free choice: uninterpreted (log entry 2). -/
opaque Config.freeMove : Nat → Move

/-- Uninterpreted: the number `BL` is made from. -/
opaque Config.topLevelSource : Half

/-- BL (R7): any value of 1..65535, and no other (log entry 7). -/
def Config.bl : Half := if Config.topLevelSource = 0 then 1 else Config.topLevelSource

/-- Uninterpreted: the samples `WAVE` is made from. -/
opaque Config.sampleSource : Nat → Byte

/-- The least of the first 64 source samples. -/
def Config.waveMin : Byte :=
  (List.range 64).foldl (fun m k => if Config.sampleSource k < m then Config.sampleSource k else m) 255

/-- The greatest of the first 64 source samples. -/
def Config.waveMax : Byte :=
  (List.range 64).foldl (fun m k => if m < Config.sampleSource k then Config.sampleSource k else m) 0

/-- The rising half of the waveform: least at 0, greatest at 63. -/
def Config.rise (k : Nat) : Byte :=
  if k = 0 then Config.waveMin else if k = 63 then Config.waveMax else Config.sampleSource k

/-- The place of an index in the rising half: W1 pairs `i` with `127 - i`. -/
def Config.mirror (i : Index) : Nat := if i.toNat < 64 then i.toNat else 127 - i.toNat

/-- WAVE (R8, R31), the contents of the ROM: mirrored about 63.5 (W1), greatest at 63 and 64 (W2), least at 0 and 127
(W3). Every table that meets W1 to W3 is such a table, and every such table meets them (log entry 8). -/
def Config.wave (i : Index) : Byte := Config.rise (Config.mirror i)

/-- TICK_PERIOD (R10, R246): open; no rule of the model reads it (log entry 16). -/
opaque Config.tickPeriod : Nat

/-- PORT_MAP (R56): where the platform places the numbered ports; open; no rule of the model reads it. -/
opaque Config.portMap : Nat → Nat

end Sys2Proof
end

