-- ==== Sys2Proof/Syntax.lean ====
section
/-! DEFINITION. The instructions: one constructor per row of spec/opcode_table.json (30_encoding.md R71, R74). -/

namespace Sys2Proof

/-- The two input ports that carry encoded words: commands (R70) and tick events (R74). -/
inductive Port where
  | command
  | event
  deriving DecidableEq, Repr

/-- The two execution contexts (60_exceptions.md R210). -/
inductive Context where
  | foreground
  | interrupt
  deriving DecidableEq, Repr

inductive Instr where
  /-- `INIT_PORTS` (41_static_setter.md R125). -/
  | initPorts
  /-- `SET L` (R120); the operand is the u16 level. -/
  | set (level : Half)
  /-- `ENABLE` (42_breathing_fsm.md R143). -/
  | enable
  /-- `PULSE_ONCE` (R144). -/
  | pulseOnce
  /-- `DISABLE` (R146). -/
  | disable
  /-- `REQ_SELF_DISABLE` (R147). -/
  | reqSelfDisable
  /-- `IS_ACTIVE` (R148). -/
  | isActive
  /-- `MAP v` (40_lightness_mapper.md R109); the operand is a linear duty. -/
  | map (linear : Half)
  /-- `TICK`, an event and no command (43_periodic_tick.md R170). -/
  | tick
  deriving DecidableEq, Repr

/-- The port an instruction arrives on: `TICK` on the event port, every other on the command port (R71, R74). -/
def Instr.port : Instr → Port
  | .initPorts => .command
  | .set _ => .command
  | .enable => .command
  | .pulseOnce => .command
  | .disable => .command
  | .reqSelfDisable => .command
  | .isActive => .command
  | .map _ => .command
  | .tick => .event

/-- The context that runs what a port carries: the interrupt context runs only `TICK` (R210). -/
def Port.context : Port → Context
  | .command => .foreground
  | .event => .interrupt

end Sys2Proof
end

