-- ==== Sys2Proof/WellFormed.lean ====
section
/-! DEFINITION. Which instruction a port may carry. The operands are u16 by their type (30_encoding.md R73); whether a
level is admitted depends on BL and is a check of the machine, not of the syntax (R77). -/

namespace Sys2Proof

/-- The command port carries every command and no `TICK`; the event port carries `TICK` alone (R71, R74, R76). -/
def Instr.wellFormed (p : Port) (i : Instr) : Bool :=
  match i, p with
  | .tick, .command => false
  | .tick, .event => true
  | .initPorts, .command => true
  | .set _, .command => true
  | .enable, .command => true
  | .pulseOnce, .command => true
  | .disable, .command => true
  | .reqSelfDisable, .command => true
  | .isActive, .command => true
  | .map _, .command => true
  | .initPorts, .event => false
  | .set _, .event => false
  | .enable, .event => false
  | .pulseOnce, .event => false
  | .disable, .event => false
  | .reqSelfDisable, .event => false
  | .isActive, .event => false
  | .map _, .event => false

end Sys2Proof
end

