-- ==== Sys2Proof/Decode.lean ====
section
/-! DEFINITION. The decoder of both ports, total on any bytes, and after it the encoder (30_encoding.md). -/

namespace Sys2Proof

/-- Why bytes are no instruction of a port. On the command port the machine raises F_RESERVED for each of the first three
(R72, R73, R76); on the event port the word is ignored (R74). -/
inductive DecodeError where
  /-- `RSV`, bits 15:4, is not zero (R72). -/
  | reservedBits
  /-- `OPC` is 0x0, 0x9 or 0xA to 0xF (R76). -/
  | reservedOpcode
  /-- `IMM16` is not zero on an operation that takes no operand (R73). -/
  | strayOperand
  /-- An event word other than 0x00000009 (R74). -/
  | unknownEvent
  /-- Fewer or more bytes than the four of a word (R70: one length). -/
  | wrongLength
  deriving DecidableEq, Repr

/-- The decoder's answer. -/
inductive Decoded where
  | instr (i : Instr)
  | rejected (e : DecodeError)
  deriving DecidableEq, Repr

/-- `OPC`, bits 3:0 (R70). -/
def opcField (w : Word) : BitVec 4 := w.extractLsb' 0 4

/-- `RSV`, bits 15:4 (R70). -/
def rsvField (w : Word) : BitVec 12 := w.extractLsb' 4 12

/-- `IMM16`, bits 31:16 (R70). -/
def immField (w : Word) : Half := w.extractLsb' 16 16

/-- An operation without an operand needs `IMM16 = 0` (R73). -/
def noOperand (w : Word) (i : Instr) : Decoded :=
  if immField w = 0 then .instr i else .rejected .strayOperand

/-- The state-free checks of R77, in its order: `RSV`, then `OPC`, then a stray `IMM16`. -/
def decodeCommand (w : Word) : Decoded :=
  if rsvField w ≠ 0 then .rejected .reservedBits
  else match (opcField w).toNat with
    | 1 => noOperand w .initPorts
    | 2 => .instr (.set (immField w))
    | 3 => noOperand w .enable
    | 4 => noOperand w .pulseOnce
    | 5 => noOperand w .disable
    | 6 => noOperand w .reqSelfDisable
    | 7 => noOperand w .isActive
    | 8 => .instr (.map (immField w))
    | _ => .rejected .reservedOpcode

/-- The event word of `TICK` (R74). -/
def tickWord : Word := 0x00000009

/-- The event port carries one kind of event (R74). -/
def decodeEvent (w : Word) : Decoded :=
  if w = tickWord then .instr .tick else .rejected .unknownEvent

/-- The word a port carries, decoded as that port decodes it. -/
def decode (p : Port) (w : Word) : Decoded :=
  match p with
  | .command => decodeCommand w
  | .event => decodeEvent w

/-- A word serialised outside the block: little-endian, byte 0 holds bits 7:0 (20_memory.md R52). -/
def wordBytes (w : Word) : List Byte :=
  [w.extractLsb' 0 8, w.extractLsb' 8 8, w.extractLsb' 16 8, w.extractLsb' 24 8]

/-- The word that four little-endian bytes stand for (R52). -/
def bytesWord (bs : List Byte) : Option Word :=
  match bs with
  | [b0, b1, b2, b3] => some (b3 ++ (b2 ++ (b1 ++ b0)))
  | _ => none

/-- Decoding the bytes of one word of a port. -/
def decodeBytes (p : Port) (bs : List Byte) : Decoded :=
  match bytesWord bs with
  | some w => decode p w
  | none => .rejected .wrongLength

/-! ## The encoder -/

/-- The operation codes of R71 and R74. -/
def opcode : Instr → BitVec 4
  | .initPorts => 0x1
  | .set _ => 0x2
  | .enable => 0x3
  | .pulseOnce => 0x4
  | .disable => 0x5
  | .reqSelfDisable => 0x6
  | .isActive => 0x7
  | .map _ => 0x8
  | .tick => 0x9

/-- The operand an instruction carries in `IMM16`, zero where it takes none (R73). -/
def operand : Instr → Half
  | .initPorts => 0
  | .set level => level
  | .enable => 0
  | .pulseOnce => 0
  | .disable => 0
  | .reqSelfDisable => 0
  | .isActive => 0
  | .map linear => linear
  | .tick => 0

/-- The word of an instruction: `IMM16`, then `RSV = 0`, then `OPC` (R70, R74, R80). -/
def encode (i : Instr) : Word := operand i ++ (0#12 ++ opcode i)

/-- The port whose code space holds this word: the event port has 0x00000009 alone, every other word is a command's
(R71, R74). -/
def portOfWord (w : Word) : Port := if w = tickWord then .event else .command

/-- The word of the opcode table's numbering (bit 0 is the least significant bit of the one 32-bit word), its bits above
`nbits` zero. -/
def tableWord (nbits w : Nat) : Word := BitVec.ofNat 32 (w % 2 ^ min nbits 32)

/-- The instruction the decoder reads from a row's word: laid out as bytes, given to the port that carries it. -/
def decodeTableWord (nbits w : Nat) : Option Instr :=
  let word := tableWord nbits w
  match decodeBytes (portOfWord word) (wordBytes word) with
  | .instr i => some i
  | .rejected _ => none

end Sys2Proof
end

