-- ==== Sys2Proof/Machine/State.lean ====
section
/-! DEFINITION. The block's state as plain data (10_state.md), its reset, and the reasons a step can stop. -/

namespace Sys2Proof.Machine

/-- HALT (10_state.md R23): three-valued, as R30 and decision D33 allow; 3 is never written (log entry 11). -/
inductive HaltMode where
  | none
  | atOff
  | atOn
  deriving DecidableEq, Repr

/-- FAULT (R27) by the names of 60_exceptions.md R201; `FaultCode.number` gives the u3 of the fault output. -/
inductive FaultCode where
  | none
  | reserved
  | notInit
  | reinit
  | levelRange
  | periodRange
  deriving DecidableEq, Repr

/-- The callback hook of a `BK_START` (R34). -/
inductive Hook where
  | null
  | tick
  deriving DecidableEq, Repr

/-- The alphabet of the output command stream (R34). -/
inductive BackendCmd where
  | stop
  | start (hook : Hook)
  | enableNotify
  | enableCh (c : Channel) (duty : Half)
  | disableCh (c : Channel)
  deriving DecidableEq, Repr

/-- The interleaving points of `SET_BODY` (41_static_setter.md R126): before one of the disables of level 0, or before the
enable step of a level above 0. The level in use is carried here (log entry 5). -/
inductive BodyPoint where
  | disable (c : Channel)
  | enable (level : Half)
  deriving DecidableEq, Repr

/-- The interleaving points of `ENABLE_BODY` (42_breathing_fsm.md R143). -/
inductive EnablePoint where
  | phase
  | halt
  | arm
  deriving DecidableEq, Repr

/-- The interleaving points of `INIT_PORTS` (R125). -/
inductive InitPoint where
  | readLevel
  | body (p : BodyPoint)
  | readBreathing
  | enable (p : EnablePoint)
  deriving DecidableEq, Repr

/-- The interleaving points of `PULSE_ONCE` (R144). -/
inductive PulsePoint where
  | readLevel
  | halt
  | arm
  deriving DecidableEq, Repr

/-- The interleaving points of `DISABLE` (R146). -/
inductive DisablePoint where
  | deactivate
  | readLevel
  | body (p : BodyPoint)
  deriving DecidableEq, Repr

/-- SEQ (R21): idle, or the command in progress with the interleaving point it stands at. `MAP` and `IS_ACTIVE` have no
interleaving point, so neither ever stands here (log entries 5 and 6). -/
inductive Seq where
  | idle
  | initPorts (p : InitPoint)
  | set (p : BodyPoint)
  | enable (p : EnablePoint)
  | pulseOnce (p : PulsePoint)
  | disable (p : DisablePoint)
  | reqSelfDisable
  deriving DecidableEq, Repr

/-- The waveform ROM: the indices that differ from the parameter WAVE, in rising order (20_memory.md R50). -/
abbrev Memory := List Host.Cell

/-- Everything the spec gives the machine, the parameters it runs with, and what stands on its ports. -/
structure State where
  /-- PHASE (R22). -/
  phase : Half
  /-- HALT (R23). -/
  halt : HaltMode
  /-- ACTIVE (R24). -/
  active : Bool
  /-- NOTIFY (R25). -/
  notify : Bool
  /-- INIT (R26). -/
  init : Bool
  /-- FAULT (R27). -/
  fault : FaultCode
  /-- FAULT_INFO (R27). -/
  faultInfo : Word
  /-- SEQ (R21). -/
  seq : Seq
  /-- The waveform ROM (R31, R32); no step writes it. -/
  rom : Memory
  /-- The parameter BL (00_scope.md R7); no step writes it. -/
  bl : Half
  /-- The parameter SCALE_VARIANT (R9); no step writes it. -/
  scaleVariant : ScaleVariant
  /-- What `cfg_level()` answers now (R33, R53). -/
  cfgLevel : Nat
  /-- What `cfg_period()` answers now. -/
  cfgPeriod : Nat
  /-- What `cfg_breathing()` answers now. -/
  cfgBreathing : Bool
  /-- The command words the foreground agent has yet to issue, oldest first (log entry 1). -/
  commands : List Word
  /-- The moves the environment has fixed in advance, next first (log entry 1). -/
  agenda : List Move
  /-- How many free choices the environment has made (log entry 2). -/
  moves : Nat
  /-- The output command stream since power-on, oldest first (R34). -/
  out : List BackendCmd
  /-- The responses delivered since power-on, oldest first (R35). -/
  responses : List Word
  deriving DecidableEq, Repr

/-- Why a step stops. -/
inductive Fault where
  /-- Raised by every step of an agent of the block, and by every instruction, while FAULT is not 0: the block takes no step
  until the next reset (60_exceptions.md R200, 93_implementation_defined.md row 11; log entry 13). Safe: nothing is claimed
  past it. -/
  | stopped
  deriving DecidableEq, Repr

/-- Why an instruction is not admitted. -/
inductive Refusal where
  /-- Raised by exec for an instruction that has no meaning yet; no arm raises it. Safe. -/
  | notModelled (mnemonic : String)
  /-- Raised by every command's meaning when SEQ holds another command: one command at a time (10_state.md R21, decision
  D31, 93_implementation_defined.md row 12: such an input is not admitted; log entry 14). `step` never meets it. Safe. -/
  | commandInProgress
  deriving DecidableEq, Repr

/-- The machine right after power-on reset (R39, 70_reset_and_hazards.md R230). The parameters are the uninterpreted ones of
Config, SCALE_VARIANT its default (R9); the ports' values are the model's choice (log entries 1, 2, 3). -/
def State.reset : State where
  phase := 0
  halt := .none
  active := false
  notify := false
  init := false
  fault := .none
  faultInfo := 0
  seq := .idle
  rom := []
  bl := Config.bl
  scaleVariant := .doc
  cfgLevel := 0
  cfgPeriod := 1
  cfgBreathing := false
  commands := []
  agenda := []
  moves := 0
  out := []
  responses := []

end Sys2Proof.Machine
end

