-- ==== Sys2Proof/Machine/Ops.lean ====
section
/-! DEFINITION. The shared operations over the state: register writes, the output stream, responses, the ROM, raising a
fault, power-on, and the two backend sequences. -/

namespace Sys2Proof.Machine

/-- What a step answers. -/
abbrev Result := Host.Outcome State Fault Refusal

/-! ## Registers and ports -/

/-- `PHASE <- v`. -/
def State.setPhase (s : State) (v : Half) : State := { s with phase := v }

/-- `HALT <- h`. -/
def State.setHalt (s : State) (h : HaltMode) : State := { s with halt := h }

/-- SEQ at an interleaving point of the command in progress (R21). -/
def State.goto (s : State) (q : Seq) : State := { s with seq := q }

/-- `emit C`, for several commands in the order written (00_scope.md R14). -/
def State.emit (s : State) (cs : List BackendCmd) : State := { s with out := s.out ++ cs }

/-- The five channels in the order every write follows (10_state.md R34, decision D15). -/
def channels : List Channel := [0, 1, 2, 3, 4]

/-- One duty to all five channels, in channel order (00_scope.md R6). -/
def enableAll (d : Half) : List BackendCmd := channels.map (fun c => .enableCh c d)

/-- The last micro-step of a command: `SEQ <- IDLE` and the response is delivered (R21, R35). -/
def State.finish (s : State) (response : Word) : State :=
  { s with seq := .idle, responses := s.responses ++ [response] }

/-! ## The waveform ROM -/

/-- `MemRead(i, 1)` (00_scope.md R13, 20_memory.md R51): the listed byte, else the parameter WAVE's. -/
def Memory.read (m : Memory) (i : Index) : Byte := (m.lookup i.toNat).getD (Config.wave i)

/-- One cell is within 0..127 and differs from what its index reads as unlisted. -/
def Memory.cellOk (c : Host.Cell) : Bool := decide (c.1 < 128) && decide (c.2 ≠ Config.wave (BitVec.ofNat 7 c.1))

/-- The canonical form: indices strictly rising, each cell needed. -/
def Memory.wf : Memory → Bool
  | [] => true
  | [c] => Memory.cellOk c
  | c :: d :: rest => Memory.cellOk c && decide (c.1 < d.1) && Memory.wf (d :: rest)

/-! ## Faults and reset -/

/-- `raise Fault(code, info)` (60_exceptions.md R200): the first fault is kept, `SEQ <- IDLE`, no response. The step's other
effects do not happen, because every check comes before them. -/
def State.raise (s : State) (code : FaultCode) (info : Word) : State :=
  { s with
    fault := if s.fault = .none then code else s.fault
    faultInfo := if s.fault = .none then info else s.faultInfo
    seq := .idle }

/-- A faulted block takes no step until the next reset (R200; log entry 13). -/
def running (s : State) (step : State → Result) : Result :=
  if s.fault = .none then step s else .fault .stopped

/-- Power-on reset (70_reset_and_hazards.md R230): every register at its reset value, nothing emitted. The parameters, the
ROM and what the outside world holds stay; the two streams begin anew (log entry 10). -/
def State.powerOn (s : State) : State :=
  { s with
    phase := State.reset.phase
    halt := State.reset.halt
    active := State.reset.active
    notify := State.reset.notify
    init := State.reset.init
    fault := State.reset.fault
    faultInfo := State.reset.faultInfo
    seq := State.reset.seq
    out := State.reset.out
    responses := State.reset.responses }

/-! ## Backend sequences -/

/-- ARM (42_breathing_fsm.md R141), one micro-step. -/
def State.arm (s : State) : State :=
  { s with
    active := true
    notify := true
    out := s.out ++ [.stop, .start .tick, .enableNotify] }

/-- DEACTIVATE (R142), one micro-step of either context; PHASE and HALT stay (R149). -/
def State.deactivate (s : State) : State :=
  { s with
    active := false
    notify := false
    out := s.out ++ [.stop, .start .null] }

/-! ## The start of INIT_PORTS -/

/-- The first micro-step of `INIT_PORTS` (41_static_setter.md R125): `INIT <- 1; ACTIVE <- 0; NOTIFY <- 0; emit BK_START(NULL)`. -/
def State.startUp (s : State) : State :=
  { s with
    init := true
    active := false
    notify := false
    out := s.out ++ [.start .null] }

end Sys2Proof.Machine
end

