-- ==== Sys2Proof/Machine/Operands.lean ====
section
/-! DEFINITION. Where an instruction's values come from: the command word's operand, and the reads of the config store with
their range checks (10_state.md R33, R36, R37; 20_memory.md R53). -/

namespace Sys2Proof.Machine

/-- `zext_32` of a value read, reduced as R200 records it. -/
def infoOf (v : Nat) : Word := BitVec.ofNat 32 v

/-- `zext_32` of a u16. -/
def zext32 (v : Half) : Word := v.setWidth 32

/-- `zext_32` of one bit. -/
def bitWord (b : Bool) : Word := if b then 1 else 0

/-- `L <- cfg_level(); if L > BL then raise Fault(F_LEVEL_RANGE, zext_32(L))`. An admitted level is a u16, because
BL is (R37). -/
def withLevel (s : State) (k : Half → Result) : Result :=
  if s.bl.toNat < s.cfgLevel then .next (s.raise .levelRange (infoOf s.cfgLevel))
  else k (BitVec.ofNat 16 s.cfgLevel)

/-- `P <- cfg_period(); if P < 1 or P > 256 then raise Fault(F_PERIOD_RANGE, zext_32(P))` (R36). -/
def withPeriod (s : State) (k : Nat → Result) : Result :=
  if s.cfgPeriod < 1 ∨ 256 < s.cfgPeriod then .next (s.raise .periodRange (infoOf s.cfgPeriod))
  else k s.cfgPeriod

/-- The level an interleaving point of `SET_BODY` stands for: its disables are those of level 0 (R126). -/
def BodyPoint.level : BodyPoint → Half
  | .disable _ => 0
  | .enable level => level

/-- The instruction whose command word SEQ holds (R21): none while the foreground is idle. -/
def Seq.instr : Seq → Option Instr
  | .idle => none
  | .initPorts _ => some .initPorts
  | .set p => some (.set p.level)
  | .enable _ => some .enable
  | .pulseOnce _ => some .pulseOnce
  | .disable _ => some .disable
  | .reqSelfDisable => some .reqSelfDisable

/-- The place of an interleaving point of `SET_BODY` in its list of micro-steps. -/
def BodyPoint.number : BodyPoint → Nat
  | .disable c => c.val
  | .enable _ => 0

/-- The place of an interleaving point of `ENABLE_BODY` in its list of micro-steps. -/
def EnablePoint.number : EnablePoint → Nat
  | .phase => 0
  | .halt => 1
  | .arm => 2

/-- SEQ in the form R21 gives it: the command word and the number of the micro-step that comes next, counted along the
command's rule with the longer branch of `SET_BODY` (log entry 5). -/
def Seq.position : Seq → Option (Word × Nat)
  | .idle => none
  | .initPorts .readLevel => some (encode .initPorts, 2)
  | .initPorts (.body p) => some (encode .initPorts, 3 + p.number)
  | .initPorts .readBreathing => some (encode .initPorts, 8)
  | .initPorts (.enable p) => some (encode .initPorts, 9 + p.number)
  | .set p => some (encode (.set p.level), 1 + p.number)
  | .enable p => some (encode .enable, 1 + p.number)
  | .pulseOnce .readLevel => some (encode .pulseOnce, 1)
  | .pulseOnce .halt => some (encode .pulseOnce, 2)
  | .pulseOnce .arm => some (encode .pulseOnce, 3)
  | .disable .deactivate => some (encode .disable, 1)
  | .disable .readLevel => some (encode .disable, 2)
  | .disable (.body p) => some (encode .disable, 3 + p.number)
  | .reqSelfDisable => some (encode .reqSelfDisable, 1)

end Sys2Proof.Machine
end

