-- ==== Sys2Proof/Machine/Flags.lean ====
section
/-! DEFINITION. The block has no arithmetic flags (10_state.md R38). Its status: the fault output, the FSM state, when a
tick may be delivered, and when a command is admitted. -/

namespace Sys2Proof.Machine

/-- FAULT as the u3 of R201. -/
def FaultCode.number : FaultCode → BitVec 3
  | .none => 0
  | .reserved => 1
  | .notInit => 2
  | .reinit => 3
  | .levelRange => 4
  | .periodRange => 5

/-- HALT as the u2 of R23. -/
def HaltMode.number : HaltMode → BitVec 2
  | .none => 0
  | .atOff => 1
  | .atOn => 2

/-- The fault output shows FAULT and FAULT_INFO at all times (R200). -/
def State.faultOutput (s : State) : BitVec 3 × Word := (s.fault.number, s.faultInfo)

/-- The FSM states the source names (R28). -/
inductive Breathing where
  | inactive
  | running
  | haltOn
  | haltOff
  deriving DecidableEq, Repr

/-- The FSM state is a function of ACTIVE and HALT, not a register (R28). -/
def State.breathing (s : State) : Breathing :=
  if s.active then
    match s.halt with
    | .none => .running
    | .atOn => .haltOn
    | .atOff => .haltOff
  else .inactive

/-- A tick may be delivered (60_exceptions.md R205): the hook is the tick, notification is on, no fault. Its fourth
condition, an interleaving point or an idle foreground, holds between any two steps of the model (log entry 6). -/
def State.tickDeliverable (s : State) : Bool := s.active && s.notify && decide (s.fault = .none)

/-- The checks of R77 that need the state, in its order, for the command `i` of word `encode i`: the fault to raise, or
none. -/
def admission (i : Instr) (s : State) : FaultCode :=
  match i with
  | .initPorts => if s.init then .reinit else .none
  | .map _ => .none
  | .set level => if s.init then (if s.bl < level then .levelRange else .none) else .notInit
  | .enable => if s.init then .none else .notInit
  | .pulseOnce => if s.init then .none else .notInit
  | .disable => if s.init then .none else .notInit
  | .reqSelfDisable => if s.init then .none else .notInit
  | .isActive => if s.init then .none else .notInit
  | .tick => .none

/-- A command is accepted, its decode checks and its first micro-step being one micro-step (R77): `raise Fault(code, w)` or
the first micro-step. -/
def accept (i : Instr) (s : State) (first : State → State) : Result :=
  if admission i s = .none then .next (first s) else .next (s.raise (admission i s) (encode i))

end Sys2Proof.Machine
end

