-- ==== Sys2Proof/Machine/Mapper.lean ====
section
/-! DEFINITION. The Lightness Mapper (40_lightness_mapper.md) and the `MAP` command. -/

namespace Sys2Proof.Machine

/-- The fixed-point value `y` of the high segment (R101). -/
def mapY (v : Nat) : Nat := ((v + 10486) <<< 8) / 76021

/-- The cube, shifted back (R101). -/
def mapCube (y : Nat) : Nat := (y * y * y) >>> 8

/-- `MAP(v)` on exact natural numbers (R101, R102). -/
def mapNat (v : Nat) : Nat := if v ≤ 5243 then v / 9 else min (mapCube (mapY v)) 65535

/-- `MAP(v : u16) : u16` (R101). -/
def mapDuty (v : Half) : Half := BitVec.ofNat 16 (mapNat v.toNat)

/-- `MAP v` (R109): one micro-step, admitted before `INIT_PORTS`; the response is the mapped duty. -/
def execMap (linear : Half) (s : State) : Result :=
  running s fun s =>
    match s.seq with
    | .idle => accept (.map linear) s fun s => s.finish (zext32 (mapDuty linear))
    | _ => .refused .commandInProgress

end Sys2Proof.Machine
end

