-- ==== Sys2Proof/Machine/Setter.lean ====
section
/-! DEFINITION. The static setter: `STATIC_DUTY`, `SET_BODY` and the `SET` command (41_static_setter.md). -/

namespace Sys2Proof.Machine

/-- `STATIC_DUTY(L) = MAP((65535 * L) div BL)` (R122). -/
def staticDuty (bl level : Half) : Half := mapDuty (BitVec.ofNat 16 (65535 * level.toNat / bl.toNat))

/-- Where `SET_BODY(L)` begins (R126). -/
def BodyPoint.first (level : Half) : BodyPoint := if level = 0 then .disable 0 else .enable level

/-- What the setter emits for a level above 0: nothing while the animation owns the channels (R123), else the static duty
to all five in one micro-step (R124). -/
def staticFrame (s : State) (level : Half) : List BackendCmd :=
  if s.active then [] else enableAll (staticDuty s.bl level)

/-- One micro-step of `SET_BODY` (R126): `resume` places SEQ at the body's next point inside the command in progress, `done`
is what the command does in the body's last micro-step. -/
def setBody (p : BodyPoint) (resume : BodyPoint → Seq) (done : State → State) (s : State) : State :=
  match p with
  | .disable c =>
    if c = 4 then done (s.emit [.disableCh c])
    else (s.emit [.disableCh c]).goto (resume (.disable (c + 1)))
  | .enable level => done (s.emit (staticFrame s level))

/-- `SET L` (R120). -/
def execSet (level : Half) (s : State) : Result :=
  running s fun s =>
    match s.seq with
    | .idle => accept (.set level) s fun s => s.goto (.set (BodyPoint.first level))
    | .set p =>
      if p.level = level then .next (setBody p .set (fun s => s.finish 0) s)
      else .refused .commandInProgress
    | _ => .refused .commandInProgress

end Sys2Proof.Machine
end

