-- ==== Sys2Proof/Machine/Breathing.lean ====
section
/-! DEFINITION. The foreground side of the breathing engine (42_breathing_fsm.md) and `INIT_PORTS` (41_static_setter.md R125). -/

namespace Sys2Proof.Machine

/-- One micro-step of `ENABLE_BODY` (R143); the command that runs it ends with the ARM. -/
def enableBody (p : EnablePoint) (resume : EnablePoint → Seq) (s : State) : State :=
  match p with
  | .phase => (s.setPhase 0).goto (resume .halt)
  | .halt => (s.setHalt .none).goto (resume .arm)
  | .arm => s.arm.finish 0

/-- `ENABLE` (R143). -/
def execEnable (s : State) : Result :=
  running s fun s =>
    match s.seq with
    | .idle => accept .enable s fun s => s.goto (.enable .phase)
    | .enable p => .next (enableBody p .enable s)
    | _ => .refused .commandInProgress

/-- The phase of the "on" extreme: `(P * 256) div 2` (R144). -/
def pulsePhase (period : Nat) : Half := BitVec.ofNat 16 (period * 256 / 2)

/-- The first interleaving point's micro-step of `PULSE_ONCE` (R144): the level read decides the phase; the period is read
only when the level is not 0. -/
def pulseStart (s : State) : Result :=
  withLevel s fun level =>
    if level = 0 then .next ((s.setPhase 0).goto (.pulseOnce .halt))
    else withPeriod s fun period => .next ((s.setPhase (pulsePhase period)).goto (.pulseOnce .halt))

/-- `PULSE_ONCE` (R144, R145). -/
def execPulseOnce (s : State) : Result :=
  running s fun s =>
    match s.seq with
    | .idle => accept .pulseOnce s fun s => s.goto (.pulseOnce .readLevel)
    | .pulseOnce .readLevel => pulseStart s
    | .pulseOnce .halt => .next ((s.setHalt .atOn).goto (.pulseOnce .arm))
    | .pulseOnce .arm => .next (s.arm.finish 0)
    | _ => .refused .commandInProgress

/-- `DISABLE` (R146). -/
def execDisable (s : State) : Result :=
  running s fun s =>
    match s.seq with
    | .idle => accept .disable s fun s => s.goto (.disable .deactivate)
    | .disable .deactivate => .next (s.deactivate.goto (.disable .readLevel))
    | .disable .readLevel =>
      withLevel s fun level => .next (s.goto (.disable (.body (BodyPoint.first level))))
    | .disable (.body p) => .next (setBody p (fun p => .disable (.body p)) (fun s => s.finish 0) s)
    | _ => .refused .commandInProgress

/-- The halt mode `REQ_SELF_DISABLE` asks for (R147). -/
def haltFor (level : Half) : HaltMode := if level = 0 then .atOff else .atOn

/-- `REQ_SELF_DISABLE` (R147). -/
def execReqSelfDisable (s : State) : Result :=
  running s fun s =>
    match s.seq with
    | .idle => accept .reqSelfDisable s fun s => s.goto .reqSelfDisable
    | .reqSelfDisable => withLevel s fun level => .next ((s.setHalt (haltFor level)).finish 0)
    | _ => .refused .commandInProgress

/-- `IS_ACTIVE` (R148): one micro-step; the response is ACTIVE. -/
def execIsActive (s : State) : Result :=
  running s fun s =>
    match s.seq with
    | .idle => accept .isActive s fun s => s.finish (bitWord s.active)
    | _ => .refused .commandInProgress

/-- `INIT_PORTS` (R125). -/
def execInitPorts (s : State) : Result :=
  running s fun s =>
    match s.seq with
    | .idle => accept .initPorts s fun s => s.startUp.goto (.initPorts .readLevel)
    | .initPorts .readLevel =>
      withLevel s fun level => .next (s.goto (.initPorts (.body (BodyPoint.first level))))
    | .initPorts (.body p) =>
      .next (setBody p (fun p => .initPorts (.body p)) (fun s => s.goto (.initPorts .readBreathing)) s)
    | .initPorts .readBreathing =>
      .next (if s.cfgBreathing then s.goto (.initPorts (.enable .phase)) else s.finish 0)
    | .initPorts (.enable p) => .next (enableBody p (fun p => .initPorts (.enable p)) s)
    | _ => .refused .commandInProgress

end Sys2Proof.Machine
end

