-- ==== Sys2Proof/Machine/Tick.lean ====
section
/-! DEFINITION. The periodic tick: phase accumulator, sample selector, halt check, scaler and frame write
(43_periodic_tick.md). -/

namespace Sys2Proof.Machine

/-- `(PHASE + 1) mod (P * 256)`, the sum exact (R172). -/
def nextPhase (phase : Half) (period : Nat) : Half := BitVec.ofNat 16 ((phase.toNat + 1) % (period * 256))

/-- `interval = (P * 256) div 128` (R173). -/
def interval (period : Nat) : Nat := period * 256 / 128

/-- `idx = (PHASE div interval) mod 128` (R174). -/
def waveIndex (phase : Half) (period : Nat) : Index := BitVec.ofNat 7 (phase.toNat / interval period % 128)

/-- The halt check (R175): index 64 under HALT_AT_ON, index 127 under HALT_AT_OFF. -/
def haltHits (halt : HaltMode) (idx : Index) : Bool :=
  match halt with
  | .none => false
  | .atOn => idx == 64
  | .atOff => idx == 127

/-- `SCALE(x, L)` (R178), exact natural numbers. -/
def scale (variant : ScaleVariant) (bl : Half) (x : Byte) (level : Half) : Nat :=
  match variant with
  | .doc => x.toNat / bl.toNat * level.toNat
  | .upstreamX256 => x.toNat * 256 * level.toNat / bl.toNat

/-- The duty of a frame, `MAP(SCALE(WAVE[idx], L))` (R176, R178, R179). -/
def frameDuty (s : State) (idx : Index) (level : Half) : Half :=
  mapDuty (BitVec.ofNat 16 (scale s.scaleVariant s.bl (Memory.read s.rom idx) level))

/-- DEACTIVATE if the halt check holds at `idx`, before the frame (R175). -/
def haltAt (s : State) (idx : Index) : State := if haltHits s.halt idx then s.deactivate else s

/-- The effect of a tick with an admitted period and level (R170): the new phase, the halt, the frame. -/
def tickFrame (s : State) (period : Nat) (level : Half) : State :=
  let phase := nextPhase s.phase period
  let idx := waveIndex phase period
  (haltAt (s.setPhase phase) idx).emit (enableAll (frameDuty s idx level))

/-- The tick itself (R170, R171): one read of the period, then one of the level, both checked before any effect. -/
def tickBody (s : State) : Result :=
  withPeriod s fun period => withLevel s fun level => .next (tickFrame s period level)

/-- `TICK` (R170): delivered where R205 allows it; elsewhere it does not occur, and nothing is kept of it (R206;
log entry 15). -/
def execTick (s : State) : Result :=
  running s fun s => if s.tickDeliverable then tickBody s else .next s

end Sys2Proof.Machine
end

