-- ==== Sys2Proof/Machine/Dispatch.lean ====
section
/-! DEFINITION. The meaning of every instruction: one arm per constructor of Instr. On a command it is the next micro-step
of that command: its acceptance while SEQ is idle, else the micro-step at the point SEQ stands at. -/

namespace Sys2Proof.Machine

def exec (i : Instr) (s : State) : Host.Outcome State Fault Refusal :=
  match i with
  | .initPorts => Sys2Proof.Machine.execInitPorts s
  | .set level => Sys2Proof.Machine.execSet level s
  | .enable => Sys2Proof.Machine.execEnable s
  | .pulseOnce => Sys2Proof.Machine.execPulseOnce s
  | .disable => Sys2Proof.Machine.execDisable s
  | .reqSelfDisable => Sys2Proof.Machine.execReqSelfDisable s
  | .isActive => Sys2Proof.Machine.execIsActive s
  | .map linear => Sys2Proof.Machine.execMap linear s
  | .tick => Sys2Proof.Machine.execTick s

end Sys2Proof.Machine
end

