-- ==== Sys2Proof/Machine/Agents.lean ====
section
/-! DEFINITION. The agents' moves: who moves next, how the foreground fetches its command, how an event is delivered, what
the environment does (20_memory.md R57, 60_exceptions.md R205; log entries 1 and 2). -/

namespace Sys2Proof.Machine

/-- The move that comes next: the environment's fixed ones first, then a free choice. -/
def State.nextMove (s : State) : Move :=
  match s.agenda with
  | m :: _ => m
  | [] => Config.freeMove s.moves

/-- The state once that move is taken from the environment. -/
def State.takeMove (s : State) : State :=
  match s.agenda with
  | _ :: ms => { s with agenda := ms }
  | [] => { s with moves := s.moves + 1 }

/-- The first command word taken from the foreground agent. -/
def State.takeCommand (s : State) : State := { s with commands := s.commands.tail }

/-- The foreground agent decides on one more command word. -/
def State.drive (s : State) (w : Word) : State := { s with commands := s.commands ++ [w] }

/-- The config store's inputs change (10_state.md R33). -/
def State.storeInputs (s : State) (level period : Nat) (breathing : Bool) : State :=
  { s with cfgLevel := level, cfgPeriod := period, cfgBreathing := breathing }

/-- The idle foreground accepts a command word (30_encoding.md R77): a word that is no command raises F_RESERVED with the
whole word recorded (R76). -/
def acceptWord (w : Word) (s : State) : Result :=
  match decodeCommand w with
  | .instr i => exec i s
  | .rejected _ => .next (s.raise .reserved w)

/-- The foreground agent's move (R21): the next micro-step of the command in progress; if idle, the next command word; if
there is none, it waits (R231). -/
def foreground (s : State) : Result :=
  match s.seq.instr with
  | some i => exec i s
  | none =>
    match s.commands with
    | [] => .next s
    | w :: _ => acceptWord w s.takeCommand

/-- The event port delivers a word: a tick, or a word that is ignored and changes nothing (R74). -/
def deliver (w : Word) (s : State) : Result :=
  match decodeEvent w with
  | .instr i => exec i s
  | .rejected _ => .next s

/-- One move. The block's two agents do nothing while FAULT is not 0 (R200); the outside world is not stopped by it. -/
def move (m : Move) (s : State) : Result :=
  match m with
  | .foreground => running s foreground
  | .event w => running s (deliver w)
  | .drive w => .next (s.drive w)
  | .store level period breathing => .next (s.storeInputs level period breathing)
  | .powerOn => .next s.powerOn

/-- Setting up a word as the very next thing that runs: on the event port the tick's event, with the hook attached and
notification on, as R205 needs for its delivery; on the command port the word first in line, the foreground idle and next
to move (log entry 4). -/
def State.placeWord (s : State) (w : Word) : State :=
  match portOfWord w with
  | .event => { s with agenda := .event w :: s.agenda, active := true, notify := true }
  | .command => { s with agenda := .foreground :: s.agenda, commands := w :: s.commands, seq := .idle }

end Sys2Proof.Machine
end

