-- ==== Sys2Proof/Machine/Step.lean ====
section
/-! DEFINITION. One step: the next move of the agents, and the state that fetches a given word next. -/

namespace Sys2Proof.Machine

/-- One move of one agent (00_scope.md R15, 20_memory.md R57). -/
def step (s : State) : Host.Outcome State Fault Refusal := move s.nextMove s.takeMove

/-- `s` with an instruction's word where the next step takes it from (log entry 4). -/
def State.withFetchWord (s : State) (nbits w : Nat) : State := s.placeWord (tableWord nbits w)

end Sys2Proof.Machine
end

