-- ==== Sys2Proof/Machine/Assembler.lean ====
section
/-! DEFINITION. The assembler syntax of 30_encoding.md R78, over lists of characters (log entry 18). -/

namespace Sys2Proof.Machine

/-- The mnemonics of R71 and R78. -/
def mnemonic : Instr → List Char
  | .initPorts => ['I', 'N', 'I', 'T', '_', 'P', 'O', 'R', 'T', 'S']
  | .set _ => ['S', 'E', 'T']
  | .enable => ['E', 'N', 'A', 'B', 'L', 'E']
  | .pulseOnce => ['P', 'U', 'L', 'S', 'E', '_', 'O', 'N', 'C', 'E']
  | .disable => ['D', 'I', 'S', 'A', 'B', 'L', 'E']
  | .reqSelfDisable => ['R', 'E', 'Q', '_', 'S', 'E', 'L', 'F', '_', 'D', 'I', 'S', 'A', 'B', 'L', 'E']
  | .isActive => ['I', 'S', '_', 'A', 'C', 'T', 'I', 'V', 'E']
  | .map _ => ['M', 'A', 'P']
  | .tick => ['T', 'I', 'C', 'K']

/-- Cutting a text at every separator. -/
def splitWhere (sep : Char → Bool) (cs : List Char) : List (List Char) :=
  cs.foldr
    (fun c acc =>
      if sep c then [] :: acc
      else match acc with
        | t :: ts => (c :: t) :: ts
        | [] => [[c]])
    [[]]

/-- The words of a line, its comment (from `;` on) left out. -/
def lineTokens (line : List Char) : List (List Char) :=
  (splitWhere (fun c => c == ' ' || c == '\t') (line.takeWhile (· ≠ ';'))).filter (· ≠ [])

/-- One digit of a base up to 16. -/
def digitValue (base : Nat) (c : Char) : Option Nat :=
  let n := c.toNat
  let v := if 48 ≤ n ∧ n ≤ 57 then n - 48
    else if 97 ≤ n ∧ n ≤ 102 then n - 87
    else if 65 ≤ n ∧ n ≤ 70 then n - 55
    else 16
  if v < base then some v else none

/-- One or more digits. -/
def parseDigits (base : Nat) (cs : List Char) : Option Nat :=
  if cs = [] then none
  else cs.foldl (fun acc c => acc.bind fun a => (digitValue base c).map fun d => a * base + d) (some 0)

/-- A decimal or `0x`-prefixed hexadecimal number. -/
def parseNumber : List Char → Option Nat
  | '0' :: 'x' :: ds => parseDigits 16 ds
  | cs => parseDigits 10 cs

/-- An operand, in 0..65535. -/
def parseOperand (cs : List Char) : Option Half :=
  (parseNumber cs).bind fun n => if n ≤ 65535 then some (BitVec.ofNat 16 n) else none

/-- The operations that take no operand. -/
def plainInstrs : List Instr := [.initPorts, .enable, .pulseOnce, .disable, .reqSelfDisable, .isActive, .tick]

/-- One line: nothing, a command, `TICK`, or `TICK xN` for N ticks in a row; none if it is no line of the syntax. -/
def assembleLine (line : List Char) : Option (List Instr) :=
  match lineTokens line with
  | [] => some []
  | [m] => (plainInstrs.find? fun i => mnemonic i == m).map fun i => [i]
  | [m, a] =>
    if m = mnemonic (.set 0) then (parseOperand a).map fun v => [.set v]
    else if m = mnemonic (.map 0) then (parseOperand a).map fun v => [.map v]
    else if m = mnemonic .tick then
      match a with
      | 'x' :: ds => (parseDigits 10 ds).map fun n => List.replicate n .tick
      | _ => none
    else none
  | _ => none

/-- A listing, one command per line. -/
def assemble (text : List Char) : Option (List Instr) :=
  ((splitWhere (· == '\n') text).mapM assembleLine).map List.flatten

end Sys2Proof.Machine
end

