-- ==== Sys2Proof/Machine/MapperTable.lean ====
section
/-! DEFINITION. The Lightness Mapper as the look-up table of 40_lightness_mapper.md R106. -/

namespace Sys2Proof.Machine

/-- One row of R106's table: on `lo..hi` the mapper answers `value`. -/
structure MapRow where
  lo : Nat
  hi : Nat
  value : Nat
  deriving DecidableEq, Repr

/-- R106, the rows y = 52 to 92. -/
def mapRowsA : List MapRow := [
  ⟨5244, 5252, 549⟩, ⟨5253, 5549, 581⟩, ⟨5550, 5846, 615⟩, ⟨5847, 6143, 649⟩,
  ⟨6144, 6440, 686⟩, ⟨6441, 6737, 723⟩, ⟨6738, 7034, 762⟩, ⟨7035, 7331, 802⟩,
  ⟨7332, 7628, 843⟩, ⟨7629, 7925, 886⟩, ⟨7926, 8222, 930⟩, ⟨8223, 8519, 976⟩,
  ⟨8520, 8816, 1024⟩, ⟨8817, 9113, 1072⟩, ⟨9114, 9410, 1123⟩, ⟨9411, 9707, 1174⟩,
  ⟨9708, 10004, 1228⟩, ⟨10005, 10300, 1283⟩, ⟨10301, 10597, 1339⟩, ⟨10598, 10894, 1398⟩,
  ⟨10895, 11191, 1458⟩, ⟨11192, 11488, 1519⟩, ⟨11489, 11785, 1582⟩, ⟨11786, 12082, 1647⟩,
  ⟨12083, 12379, 1714⟩, ⟨12380, 12676, 1783⟩, ⟨12677, 12973, 1853⟩, ⟨12974, 13270, 1925⟩,
  ⟨13271, 13567, 2000⟩, ⟨13568, 13864, 2075⟩, ⟨13865, 14161, 2153⟩, ⟨14162, 14458, 2233⟩,
  ⟨14459, 14755, 2315⟩, ⟨14756, 15052, 2398⟩, ⟨15053, 15349, 2484⟩, ⟨15350, 15646, 2572⟩,
  ⟨15647, 15943, 2662⟩, ⟨15944, 16240, 2753⟩, ⟨16241, 16537, 2847⟩, ⟨16538, 16834, 2943⟩,
  ⟨16835, 17131, 3041⟩]

/-- R106, the rows y = 93 to 133. -/
def mapRowsB : List MapRow := [
  ⟨17132, 17427, 3142⟩, ⟨17428, 17724, 3244⟩, ⟨17725, 18021, 3349⟩, ⟨18022, 18318, 3456⟩,
  ⟨18319, 18615, 3565⟩, ⟨18616, 18912, 3676⟩, ⟨18913, 19209, 3790⟩, ⟨19210, 19506, 3906⟩,
  ⟨19507, 19803, 4024⟩, ⟨19804, 20100, 4145⟩, ⟨20101, 20397, 4268⟩, ⟨20398, 20694, 4394⟩,
  ⟨20695, 20991, 4521⟩, ⟨20992, 21288, 4652⟩, ⟨21289, 21585, 4785⟩, ⟨21586, 21882, 4920⟩,
  ⟨21883, 22179, 5058⟩, ⟨22180, 22476, 5199⟩, ⟨22477, 22773, 5342⟩, ⟨22774, 23070, 5488⟩,
  ⟨23071, 23367, 5636⟩, ⟨23368, 23664, 5787⟩, ⟨23665, 23961, 5940⟩, ⟨23962, 24257, 6097⟩,
  ⟨24258, 24554, 6256⟩, ⟨24555, 24851, 6418⟩, ⟨24852, 25148, 6582⟩, ⟨25149, 25445, 6750⟩,
  ⟨25446, 25742, 6920⟩, ⟨25743, 26039, 7093⟩, ⟨26040, 26336, 7269⟩, ⟨26337, 26633, 7447⟩,
  ⟨26634, 26930, 7629⟩, ⟨26931, 27227, 7813⟩, ⟨27228, 27524, 8001⟩, ⟨27525, 27821, 8192⟩,
  ⟨27822, 28118, 8385⟩, ⟨28119, 28415, 8582⟩, ⟨28416, 28712, 8781⟩, ⟨28713, 29009, 8984⟩,
  ⟨29010, 29306, 9189⟩]

/-- R106, the rows y = 134 to 174. -/
def mapRowsC : List MapRow := [
  ⟨29307, 29603, 9398⟩, ⟨29604, 29900, 9610⟩, ⟨29901, 30197, 9826⟩, ⟨30198, 30494, 10044⟩,
  ⟨30495, 30791, 10265⟩, ⟨30792, 31087, 10490⟩, ⟨31088, 31384, 10718⟩, ⟨31385, 31681, 10950⟩,
  ⟨31682, 31978, 11184⟩, ⟨31979, 32275, 11422⟩, ⟨32276, 32572, 11664⟩, ⟨32573, 32869, 11908⟩,
  ⟨32870, 33166, 12156⟩, ⟨33167, 33463, 12408⟩, ⟨33464, 33760, 12663⟩, ⟨33761, 34057, 12921⟩,
  ⟨34058, 34354, 13183⟩, ⟨34355, 34651, 13449⟩, ⟨34652, 34948, 13718⟩, ⟨34949, 35245, 13990⟩,
  ⟨35246, 35542, 14266⟩, ⟨35543, 35839, 14546⟩, ⟨35840, 36136, 14829⟩, ⟨36137, 36433, 15116⟩,
  ⟨36434, 36730, 15407⟩, ⟨36731, 37027, 15701⟩, ⟨37028, 37324, 16000⟩, ⟨37325, 37621, 16301⟩,
  ⟨37622, 37917, 16607⟩, ⟨37918, 38214, 16916⟩, ⟨38215, 38511, 17230⟩, ⟨38512, 38808, 17547⟩,
  ⟨38809, 39105, 17868⟩, ⟨39106, 39402, 18193⟩, ⟨39403, 39699, 18522⟩, ⟨39700, 39996, 18854⟩,
  ⟨39997, 40293, 19191⟩, ⟨40294, 40590, 19532⟩, ⟨40591, 40887, 19876⟩, ⟨40888, 41184, 20225⟩,
  ⟨41185, 41481, 20578⟩]

/-- R106, the rows y = 175 to 215. -/
def mapRowsD : List MapRow := [
  ⟨41482, 41778, 20935⟩, ⟨41779, 42075, 21296⟩, ⟨42076, 42372, 21661⟩, ⟨42373, 42669, 22030⟩,
  ⟨42670, 42966, 22403⟩, ⟨42967, 43263, 22781⟩, ⟨43264, 43560, 23163⟩, ⟨43561, 43857, 23549⟩,
  ⟨43858, 44154, 23939⟩, ⟨44155, 44451, 24334⟩, ⟨44452, 44748, 24732⟩, ⟨44749, 45044, 25136⟩,
  ⟨45045, 45341, 25543⟩, ⟨45342, 45638, 25955⟩, ⟨45639, 45935, 26372⟩, ⟨45936, 46232, 26792⟩,
  ⟨46233, 46529, 27218⟩, ⟨46530, 46826, 27648⟩, ⟨46827, 47123, 28082⟩, ⟨47124, 47420, 28521⟩,
  ⟨47421, 47717, 28964⟩, ⟨47718, 48014, 29412⟩, ⟨48015, 48311, 29864⟩, ⟨48312, 48608, 30321⟩,
  ⟨48609, 48905, 30783⟩, ⟨48906, 49202, 31250⟩, ⟨49203, 49499, 31721⟩, ⟨49500, 49796, 32196⟩,
  ⟨49797, 50093, 32677⟩, ⟨50094, 50390, 33162⟩, ⟨50391, 50687, 33652⟩, ⟨50688, 50984, 34147⟩,
  ⟨50985, 51281, 34647⟩, ⟨51282, 51578, 35152⟩, ⟨51579, 51874, 35661⟩, ⟨51875, 52171, 36175⟩,
  ⟨52172, 52468, 36695⟩, ⟨52469, 52765, 37219⟩, ⟨52766, 53062, 37748⟩, ⟨53063, 53359, 38282⟩,
  ⟨53360, 53656, 38821⟩]

/-- R106, the rows y = 216 to 256. -/
def mapRowsE : List MapRow := [
  ⟨53657, 53953, 39366⟩, ⟨53954, 54250, 39915⟩, ⟨54251, 54547, 40469⟩, ⟨54548, 54844, 41029⟩,
  ⟨54845, 55141, 41593⟩, ⟨55142, 55438, 42163⟩, ⟨55439, 55735, 42738⟩, ⟨55736, 56032, 43318⟩,
  ⟨56033, 56329, 43904⟩, ⟨56330, 56626, 44494⟩, ⟨56627, 56923, 45090⟩, ⟨56924, 57220, 45691⟩,
  ⟨57221, 57517, 46298⟩, ⟨57518, 57814, 46910⟩, ⟨57815, 58111, 47527⟩, ⟨58112, 58408, 48149⟩,
  ⟨58409, 58704, 48778⟩, ⟨58705, 59001, 49411⟩, ⟨59002, 59298, 50050⟩, ⟨59299, 59595, 50694⟩,
  ⟨59596, 59892, 51344⟩, ⟨59893, 60189, 52000⟩, ⟨60190, 60486, 52661⟩, ⟨60487, 60783, 53327⟩,
  ⟨60784, 61080, 54000⟩, ⟨61081, 61377, 54677⟩, ⟨61378, 61674, 55361⟩, ⟨61675, 61971, 56050⟩,
  ⟨61972, 62268, 56745⟩, ⟨62269, 62565, 57445⟩, ⟨62566, 62862, 58152⟩, ⟨62863, 63159, 58864⟩,
  ⟨63160, 63456, 59582⟩, ⟨63457, 63753, 60305⟩, ⟨63754, 64050, 61035⟩, ⟨64051, 64347, 61770⟩,
  ⟨64348, 64644, 62511⟩, ⟨64645, 64941, 63258⟩, ⟨64942, 65238, 64011⟩, ⟨65239, 65534, 64770⟩,
  ⟨65535, 65535, 65535⟩]

/-- The high segment's rows, in rising order (R106). -/
def mapRows : List MapRow := mapRowsA ++ mapRowsB ++ mapRowsC ++ mapRowsD ++ mapRowsE

/-- `MAP` by look-up (R106): the low segment's quotient, else the value of the row that holds `v`. -/
def mapLut (v : Nat) : Option Nat :=
  if v ≤ 5243 then some (v / 9)
  else (mapRows.find? fun r => decide (r.lo ≤ v ∧ v ≤ r.hi)).map MapRow.value

end Sys2Proof.Machine
end

