-- ==== Sys2Proof/Machine/ReferenceBackend.lean ====
section
/-! DEFINITION. The reference backend of 92_eei_decisions.md D24: what a mock PWM backend makes of the output command
stream. No rule of the block reads it; claims about channels name it (log entry 17). -/

namespace Sys2Proof.Machine

/-- Its state: the hook, whether periodic notification runs, and per channel `DISABLED` (none) or `ENABLED(d)`. -/
structure Backend where
  hook : Hook
  notifying : Bool
  channels : Vector (Option Half) 5
  deriving DecidableEq, Repr

/-- At reset every channel is `DISABLED`, nothing is hooked (D24). -/
def Backend.initial : Backend where
  hook := .null
  notifying := false
  channels := Vector.replicate 5 none

/-- What one command does (D24). -/
def Backend.apply (b : Backend) (c : BackendCmd) : Backend :=
  match c with
  | .stop => { b with notifying := false, channels := Vector.replicate 5 none }
  | .start hook => { b with hook := hook }
  | .enableNotify => { b with notifying := true }
  | .enableCh c d => { b with channels := b.channels.set c.val (some d) c.isLt }
  | .disableCh c => { b with channels := b.channels.set c.val none c.isLt }

/-- A whole stream, oldest first. -/
def Backend.run (cs : List BackendCmd) : Backend := cs.foldl Backend.apply Backend.initial

/-- The reference backend after everything the block has emitted since power-on. -/
def State.backend (s : State) : Backend := Backend.run s.out

end Sys2Proof.Machine
end

