-- ==== Sys2Proof/Safety.lean ====
section
/-! DEFINITION. What the claims mean by a good state, a good use of the block, and what can be observed of it. -/

namespace Sys2Proof.Machine

/-- W1 to W3 of 10_state.md R31, of what the tick reads from the ROM. -/
structure WaveLegal (m : Memory) : Prop where
  mirrored : ∀ i : Index, i.toNat < 64 → Memory.read m i = Memory.read m (127 - i)
  peak : ∀ i : Index, Memory.read m i ≤ Memory.read m 64
  ends : Memory.read m 0 = Memory.read m 127
  floor : ∀ i : Index, Memory.read m 0 ≤ Memory.read m i

/-- The level a point of `SET_BODY` carries is above 0 and admitted where it is used (R126, R37). -/
def BodyPoint.Legal (bl : Half) : BodyPoint → Prop
  | .disable _ => True
  | .enable level => level ≠ 0 ∧ level ≤ bl

/-- What holds at each point a command can stand at: `INIT_PORTS` and the rest of `DISABLE` run inactive (R125, R146), the
halt mode is the command's own when it arms (R150), and the levels carried are legal. -/
def Seq.Legal (s : State) : Seq → Prop
  | .idle => True
  | .initPorts .readLevel => s.active = false
  | .initPorts (.body p) => s.active = false ∧ p.Legal s.bl
  | .initPorts .readBreathing => s.active = false
  | .initPorts (.enable .phase) => s.active = false
  | .initPorts (.enable .halt) => s.active = false ∧ s.phase = 0
  | .initPorts (.enable .arm) => s.active = false ∧ s.phase = 0 ∧ s.halt = .none
  | .set p => p.Legal s.bl
  | .enable .phase => True
  | .enable .halt => True
  | .enable .arm => s.halt = .none
  | .pulseOnce .readLevel => True
  | .pulseOnce .halt => True
  | .pulseOnce .arm => s.halt = .atOn
  | .disable .deactivate => True
  | .disable .readLevel => s.active = false
  | .disable (.body p) => s.active = false ∧ p.Legal s.bl
  | .reqSelfDisable => True

/-- The invariant of the machine. -/
structure State.Inv (s : State) : Prop where
  /-- The ROM's listing is canonical. -/
  romCanonical : Memory.wf s.rom = true
  /-- The ROM meets W1 to W3 (R31). -/
  waveLegal : WaveLegal s.rom
  /-- BL is at least 1 (R7). -/
  blPositive : 1 ≤ s.bl.toNat
  /-- R29. -/
  notifyActive : s.notify = true → s.active = true
  /-- INIT = 1 whenever ACTIVE (R140). -/
  activeInit : s.active = true → s.init = true
  /-- A command has steps left only after `INIT_PORTS` (R77, R233). -/
  busyInit : s.seq ≠ .idle → s.init = true
  /-- A fault ends the command in progress (R200). -/
  faultIdle : s.fault ≠ .none → s.seq = .idle
  /-- FAULT_INFO is 0 while there is no fault (R201). -/
  noFaultInfo : s.fault = .none → s.faultInfo = 0
  /-- The command in progress stands at a legal point. -/
  seqLegal : s.seq.Legal s
  /-- ACTIVE mirrors the backend's hook (R24). -/
  hookMirrored : s.backend.hook = .tick ↔ s.active = true
  /-- NOTIFY is a copy of the backend's notification (R25). -/
  notifyMirrored : s.backend.notifying = s.notify

/-- `n` steps of the machine. -/
def run (n : Nat) (s : State) : Result := Host.Core.run Sys2Proof.core n s

/-- The foreground moves `n` times in a row, no tick between its micro-steps; then the moves of `rest`. -/
def foregroundMoves (n : Nat) (rest : List Move) : List Move := List.replicate n .foreground ++ rest

/-- `n` tick events in a row, no command between them; then the moves of `rest`. -/
def tickMoves (n : Nat) (rest : List Move) : List Move := List.replicate n (.event tickWord) ++ rest

/-- The foreground's four moves of `ENABLE` or `PULSE_ONCE`, with `k₀`, `k₁` and `k₂` ticks at its three interleaving points
(70_reset_and_hazards.md R244); then the moves of `rest`. -/
def ticksBetween (k₀ k₁ k₂ : Nat) (rest : List Move) : List Move :=
  .foreground :: tickMoves k₀ (.foreground :: tickMoves k₁ (.foreground :: tickMoves k₂ (.foreground :: rest)))

/-- `exec i` at `s` is the last micro-step of command `i`, and it completes without a fault (R21). -/
def completes (i : Instr) (s t : State) : Prop := exec i s = .next t ∧ s.seq ≠ .idle ∧ t.seq = .idle ∧ t.fault = .none

/-- What the setter emits for level `L` while the block is inactive (R121, R124). -/
def settled (bl level : Half) : List BackendCmd :=
  if level = 0 then channels.map .disableCh else enableAll (staticDuty bl level)

/-- How many micro-steps `SET_BODY(L)` has (R126). -/
def bodySteps (level : Half) : Nat := if level = 0 then 5 else 1

/-- What can be observed of the block (R40): the stream, the responses, the fault output, and ACTIVE; nothing is claimed
of a run that has stopped. -/
def observe : Result → Option (List BackendCmd × List Word × (BitVec 3 × Word) × Bool)
  | .next s => some (s.out, s.responses, s.faultOutput, s.active)
  | .fault _ => none
  | .refused _ => none

/-- The same answer with another ROM in the state: what a step that does not read the ROM does (R32). -/
def withRom (m : Memory) : Result → Result
  | .next s => .next { s with rom := m }
  | .fault r => .fault r
  | .refused r => .refused r

/-- The config store answers within range (R245). -/
def State.storeInRange (s : State) : Prop := s.cfgLevel ≤ s.bl.toNat ∧ 1 ≤ s.cfgPeriod ∧ s.cfgPeriod ≤ 256

/-- A word the idle foreground may issue without a fault: a command whose decode checks pass (R77). -/
def State.admits (s : State) (w : Word) : Prop := ∃ i, decodeCommand w = .instr i ∧ admission i s = .none

/-- Software's duties (R245, R233): the store answers within range, and the next word, if it is about to be accepted, is an
admitted command. -/
def State.dutiesKept (s : State) : Prop :=
  s.storeInRange ∧ (s.nextMove = .foreground → s.seq = .idle → ∀ w, s.commands.head? = some w → s.admits w)

/-- The interleaving points at which the next micro-step is an ARM (R141). -/
def Seq.atArm : Seq → Bool
  | .idle => false
  | .initPorts (.enable .arm) => true
  | .initPorts _ => false
  | .set _ => false
  | .enable .arm => true
  | .enable _ => false
  | .pulseOnce .arm => true
  | .pulseOnce _ => false
  | .disable _ => false
  | .reqSelfDisable => false

end Sys2Proof.Machine
end

