-- ==== Sys2Proof/Certificates/Slice0/Obligations.lean ====
section
/-! DEFINITION. The statements for the provers. Where a docstring names a decision D<n>, the clause is the spec's own choice
in 92_eei_decisions.md, not the source's. -/

open Sys2Proof Sys2Proof.Machine

/-! ## Encoding -/

/-- Words written out from the spec's encodings (30_encoding.md R78, R80; decisions D2, D3) decode to the instruction they
stand for, and words R76 reserves are rejected. -/
def Obligations.SpecWordsDecode : Prop :=
  decode .command 0x00000001 = .instr .initPorts ∧ decode .command 0x00020002 = .instr (.set 2) ∧
  decode .command 0x00000006 = .instr .reqSelfDisable ∧ decode .command 0x147B0008 = .instr (.map 0x147B) ∧
  decode .event 0x00000009 = .instr .tick ∧ decode .command 0x00000009 = .rejected .reservedOpcode ∧
  decode .command 0x00000013 = .rejected .reservedBits ∧ decode .command 0x00010003 = .rejected .strayOperand

/-- Decode and encode agree: on the port that carries it, every instruction with every operand decodes from its own word. -/
def Obligations.EncodedInstructionDecodesToItself : Prop :=
  ∀ (p : Port) (i : Instr), i.wellFormed p = true → decode p (encode i) = .instr i

/-- Every word of a port has at most one meaning: a word that decodes is the encoding of what it decodes to, and the port
may carry it. -/
def Obligations.DecodedWordIsItsEncoding : Prop :=
  ∀ (p : Port) (w : Word) (i : Instr), decode p w = .instr i → encode i = w ∧ i.wellFormed p = true

/-- A word serialised little-endian is read back whole, with byte 0 holding bits 7:0 (20_memory.md R52, decision D20). -/
def Obligations.SerialisedWordIsReadBack : Prop :=
  ∀ w : Word, bytesWord (wordBytes w) = some w ∧ (wordBytes w).head? = some (w.extractLsb' 0 8) ∧
    (wordBytes w).length = 4

/-- On the command port exactly the words with `RSV = 0`, an `OPC` of 0x1 to 0x8, and a zero `IMM16` unless `OPC` is 0x2 or
0x8, are commands (R72, R73, R76; decision D5). -/
def Obligations.CommandWordsAreExactlyTheUnreserved : Prop :=
  ∀ w : Word, (∃ i, decode .command w = .instr i) ↔
    w.toNat / 16 % 4096 = 0 ∧ 1 ≤ w.toNat % 16 ∧ w.toNat % 16 ≤ 8 ∧
      (w.toNat % 16 ≠ 2 → w.toNat % 16 ≠ 8 → w.toNat / 65536 = 0)

/-! ## The step -/

/-- The idle foreground runs the command its word decodes to, at the state without that move and that word
(how moves and words wait is the model's choice, log entry 1). -/
def Obligations.StepRunsTheDecodedCommand : Prop :=
  ∀ (s : State) (w : Word) (ws : List Word) (i : Instr), s.fault = .none → s.seq = .idle → s.nextMove = .foreground →
    s.commands = w :: ws → decode .command w = .instr i → step s = exec i { s.takeMove with commands := ws }

/-- A foreground in the middle of a command runs the next micro-step of that command (10_state.md R21; how
moves wait is the model's choice, log entry 1). -/
def Obligations.StepRunsTheCommandInProgress : Prop :=
  ∀ (s : State) (i : Instr), s.fault = .none → s.nextMove = .foreground → s.seq.instr = some i →
    step s = exec i s.takeMove

/-- An event is the tick if its word is 0x00000009, and any other word is ignored and changes no state of the block
(R74; decisions D3, D34). -/
def Obligations.StepDeliversEvents : Prop :=
  ∀ (s : State) (w : Word), s.fault = .none → s.nextMove = .event w →
    step s = if w = 0x00000009 then exec .tick s.takeMove else .next s.takeMove

/-- What the outside world does in one step: it drives a word, changes the config store, or lets the idle foreground wait;
nothing of the block is touched (log entries 1 and 3: the moves are the model's own). -/
def Obligations.StepTakesTheWorldsMoves : Prop :=
  ∀ s : State,
    (∀ w, s.nextMove = .drive w → step s = .next { s.takeMove with commands := s.commands ++ [w] }) ∧
    (∀ l p b, s.nextMove = .store l p b →
      step s = .next { s.takeMove with cfgLevel := l, cfgPeriod := p, cfgBreathing := b }) ∧
    (s.nextMove = .foreground → s.fault = .none → s.seq = .idle → s.commands = [] → step s = .next s.takeMove)

/-- A word that is no command raises F_RESERVED with the whole word recorded, whatever INIT is, and has no other effect
(R72, R76, R77; decision D5). -/
def Obligations.ReservedWordRaisesReserved : Prop :=
  ∀ (s : State) (w : Word) (ws : List Word), s.fault = .none → s.seq = .idle → s.nextMove = .foreground →
    s.commands = w :: ws → (∀ i, decode .command w ≠ .instr i) →
    step s = .next { s.takeMove with commands := ws, fault := .reserved, faultInfo := w, seq := .idle }

/-- No step is refused, and a step stops only in the fault state, when an agent of the block would move. That no step is
refused is the model's reading of R21 (log entry 14, DEDUCED), and that the outside world still moves in a faulted block is
the model's choice (log entry 13, DESIGN CHOICE). -/
def Obligations.StepStopsOnlyWhenFaulted : Prop :=
  ∀ s : State, (∀ r, step s ≠ .refused r) ∧
    ∀ r, step s = .fault r ↔ s.fault ≠ .none ∧ (s.nextMove = .foreground ∨ ∃ w, s.nextMove = .event w)

/-! ## The Lightness Mapper -/

/-- MAP is the two-segment algorithm of R101, its intermediates within the bounds R101 notes. -/
def Obligations.MapperFollowsTheAlgorithm : Prop :=
  ∀ v : Half,
    (v.toNat ≤ 5243 → (mapDuty v).toNat = v.toNat / 9) ∧
    (5243 < v.toNat →
      let t := (v.toNat + 10486) * 256
      let y := t / 76021
      let c := y * y * y / 256
      (mapDuty v).toNat = min c 65535 ∧ 4023808 ≤ t ∧ t ≤ 19461376 ∧ 52 ≤ y ∧ y ≤ 256 ∧ 549 ≤ c ∧ c ≤ 65536)

/-- The edge values the source states (R108). -/
def Obligations.MapperEdgeValues : Prop :=
  mapDuty 0 = 0 ∧ mapDuty 5243 = 582 ∧ mapDuty 65535 = 65535

/-- The algorithm equals the look-up table of R106 on its whole domain, and the table has a row for every input of the
high segment. -/
def Obligations.MapperEqualsItsTable : Prop :=
  ∀ v : Half, mapLut v.toNat = some (mapDuty v).toNat

/-- MAP decreases at 5244 and nowhere else, and stays below MAP(5243) exactly up to 5549 (R107). -/
def Obligations.MapperFallsOnlyAtTheBreakpoint : Prop :=
  (∀ v : Nat, v < 65535 →
    ((mapDuty (BitVec.ofNat 16 (v + 1))).toNat < (mapDuty (BitVec.ofNat 16 v)).toNat ↔ v = 5243)) ∧
  ∀ v : Half, 5244 ≤ v.toNat → ((mapDuty v).toNat < (mapDuty 5243).toNat ↔ v.toNat ≤ 5549)

/-- The clamp changes the result for the input 65535 alone; elsewhere in the high segment the cube is at most 64770 (R105). -/
def Obligations.MapperClampsOnlyAtFullScale : Prop :=
  mapCube (mapY 65535) = 65536 ∧ (mapDuty 65535).toNat = 65535 ∧
  ∀ v : Half, 5243 < v.toNat → v.toNat ≠ 65535 →
    mapCube (mapY v.toNat) ≤ 64770 ∧ (mapDuty v).toNat = mapCube (mapY v.toNat)

/-- `MAP v` completes in one micro-step from any idle state without a fault, before or after `INIT_PORTS`: it answers the
mapped duty and changes nothing else (R109; the command is decision D28). -/
def Obligations.MapAnswersTheMapper : Prop :=
  ∀ (s : State) (v : Half), s.fault = .none → s.seq = .idle →
    ∃ r : Word, r.toNat = (mapDuty v).toNat ∧ exec (.map v) s = .next { s with responses := s.responses ++ [r] }

/-! ## SET and INIT_PORTS -/

/-- `SET L` at each of its micro-steps (R120, R121, R123, R124, R126): acceptance emits nothing; each disable of level 0 is
one micro-step, whatever ACTIVE is; above 0, the static duty goes to the five channels in one micro-step while inactive, and
nothing is emitted while active. -/
def Obligations.SetMicroSteps : Prop :=
  ∀ s : State, s.fault = .none →
    (∀ L : Half, s.seq = .idle → s.init = true → L ≤ s.bl →
      exec (.set L) s = .next { s with seq := .set (if L = 0 then .disable 0 else .enable L) }) ∧
    (∀ c : Channel, c ≠ 4 → s.seq = .set (.disable c) →
      exec (.set 0) s = .next { s with seq := .set (.disable (c + 1)), out := s.out ++ [.disableCh c] }) ∧
    (s.seq = .set (.disable 4) → exec (.set 0) s =
      .next { s with seq := .idle, out := s.out ++ [.disableCh 4], responses := s.responses ++ [0] }) ∧
    (∀ L : Half, s.seq = .set (.enable L) → exec (.set L) s = .next { s with
      seq := .idle
      out := s.out ++ (if s.active then [] else [0, 1, 2, 3, 4].map (fun c => .enableCh c (staticDuty s.bl L)))
      responses := s.responses ++ [0] })

/-- While the animation is active, the setter's step for a level above 0 emits nothing, in `SET` and wherever else its body
runs; ACTIVE is read in that step and not at acceptance (R123: static writes never fight the animation). -/
def Obligations.SetNeverFightsTheAnimation : Prop :=
  ∀ (s : State) (L : Half), s.fault = .none → L ≠ 0 →
    (s.seq = .idle → s.init = true → L ≤ s.bl → exec (.set L) s = .next { s with seq := .set (.enable L) }) ∧
    (s.active = true → ∀ i : Instr,
      (i = .set L ∧ s.seq = .set (.enable L)) ∨ (i = .disable ∧ s.seq = .disable (.body (.enable L))) ∨
        (i = .initPorts ∧ s.seq = .initPorts (.body (.enable L))) →
      ∃ t : State, exec i s = .next t ∧ t.out = s.out)

/-- STATIC_DUTY (R122) for an admitted level: MAP of the floored quotient, which is at most 65535; at the top level it is
full scale. -/
def Obligations.StaticDutyIsMapOfTheQuotient : Prop :=
  ∀ bl L : Half, 1 ≤ L.toNat → L ≤ bl →
    65535 * L.toNat / bl.toNat ≤ 65535 ∧ (staticDuty bl L).toNat = mapNat (65535 * L.toNat / bl.toNat) ∧
      staticDuty bl bl = 65535

/-- `SET L` from an inactive idle block, no tick between: the stream gains the five disables or the five enables, the
response is 0, and nothing else changes (R120, R121, R124). -/
def Obligations.SetRunsToItsEnd : Prop :=
  ∀ (s : State) (L : Half) (ws : List Word) (rest : List Move), s.fault = .none → s.seq = .idle → s.init = true →
    s.active = false → L ≤ s.bl → s.commands = encode (.set L) :: ws →
    s.agenda = foregroundMoves (1 + bodySteps L) rest →
    run (1 + bodySteps L) s = .next { s with
      commands := ws, agenda := rest, out := s.out ++ settled s.bl L, responses := s.responses ++ [0] }

/-- A tick that does not halt, between the k-th and the next disable of `SET 0`, leaves channels 0 to k-1 at the tick's duty
and turns off only the rest: a mixed state (R242, decision D17), said of the reference backend (decision D24, log entry 17). -/
def Obligations.TickSplitsSetZero : Prop :=
  ∀ (s : State) (k : Channel) (rest : List Move), s.fault = .none → s.seq = .set (.disable k) → s.active = true →
    s.notify = true → s.halt = .none → s.storeInRange →
    s.agenda = .event tickWord :: foregroundMoves (5 - k.val) rest →
    ∃ (t : State) (d : Half), run (6 - k.val) s = .next t ∧ t.seq = .idle ∧ t.active = true ∧
      t.out = s.out ++ enableAll d ++ (channels.filter fun c => k ≤ c).map .disableCh ∧
      d = frameDuty s (waveIndex (nextPhase s.phase s.cfgPeriod) s.cfgPeriod) (BitVec.ofNat 16 s.cfgLevel) ∧
      ∀ c : Channel, t.backend.channels[c] = if c < k then some d else none

/-- `INIT_PORTS` at each of its own micro-steps (R125; its sequence is decision D19). -/
def Obligations.InitPortsMicroSteps : Prop :=
  ∀ s : State, s.fault = .none →
    (s.seq = .idle → s.init = false → exec .initPorts s = .next { s with
      init := true, active := false, notify := false, out := s.out ++ [.start .null], seq := .initPorts .readLevel }) ∧
    (s.seq = .initPorts .readLevel → s.cfgLevel ≤ s.bl.toNat → exec .initPorts s = .next { s with
      seq := .initPorts (.body (if s.cfgLevel = 0 then .disable 0 else .enable (BitVec.ofNat 16 s.cfgLevel))) }) ∧
    (∀ c : Channel, s.seq = .initPorts (.body (.disable c)) → exec .initPorts s = .next { s with
      out := s.out ++ [.disableCh c]
      seq := .initPorts (if c = 4 then .readBreathing else .body (.disable (c + 1))) }) ∧
    (∀ L : Half, s.seq = .initPorts (.body (.enable L)) → s.active = false → exec .initPorts s = .next { s with
      out := s.out ++ enableAll (staticDuty s.bl L), seq := .initPorts .readBreathing }) ∧
    (s.seq = .initPorts .readBreathing → s.cfgBreathing = true →
      exec .initPorts s = .next { s with seq := .initPorts (.enable .phase) }) ∧
    (s.seq = .initPorts .readBreathing → s.cfgBreathing = false →
      exec .initPorts s = .next { s with seq := .idle, responses := s.responses ++ [0] }) ∧
    (s.seq = .initPorts (.enable .phase) →
      exec .initPorts s = .next { s with phase := 0, seq := .initPorts (.enable .halt) }) ∧
    (s.seq = .initPorts (.enable .halt) →
      exec .initPorts s = .next { s with halt := .none, seq := .initPorts (.enable .arm) }) ∧
    (s.seq = .initPorts (.enable .arm) → exec .initPorts s = .next { s with
      active := true, notify := true, seq := .idle
      out := s.out ++ [.stop, .start .tick, .enableNotify], responses := s.responses ++ [0] })

/-- `INIT_PORTS` as a whole, the store unchanged meanwhile: the start, the static level, and breathing if the store says so
(R125; decision D19). -/
def Obligations.InitPortsRunsToItsEnd : Prop :=
  ∀ (s : State) (ws : List Word) (rest : List Move), s.fault = .none → s.seq = .idle → s.init = false →
    s.cfgLevel ≤ s.bl.toNat → s.commands = encode .initPorts :: ws →
    let L := BitVec.ofNat 16 s.cfgLevel
    let n := 3 + bodySteps L + (if s.cfgBreathing then 3 else 0)
    s.agenda = foregroundMoves n rest →
    run n s = .next { s with
      init := true
      active := s.cfgBreathing
      notify := s.cfgBreathing
      phase := if s.cfgBreathing then 0 else s.phase
      halt := if s.cfgBreathing then .none else s.halt
      commands := ws
      agenda := rest
      out := s.out ++ [.start .null] ++ settled s.bl L ++
        (if s.cfgBreathing then [.stop, .start .tick, .enableNotify] else [])
      responses := s.responses ++ [0] }

/-! ## The breathing commands -/

/-- `ENABLE` at each of its micro-steps (R143), its last one the ARM of R141 (decision D13). -/
def Obligations.EnableMicroSteps : Prop :=
  ∀ s : State, s.fault = .none →
    (s.seq = .idle → s.init = true → exec .enable s = .next { s with seq := .enable .phase }) ∧
    (s.seq = .enable .phase → exec .enable s = .next { s with phase := 0, seq := .enable .halt }) ∧
    (s.seq = .enable .halt → exec .enable s = .next { s with halt := .none, seq := .enable .arm }) ∧
    (s.seq = .enable .arm → exec .enable s = .next { s with
      active := true, notify := true, seq := .idle
      out := s.out ++ [.stop, .start .tick, .enableNotify], responses := s.responses ++ [0] })

/-- `ENABLE` as a whole, from any FSM state and with any number of ticks at each of its interleaving points (R140, R143, R244):
it always ends active, with HALT NONE and PHASE as the `m` ticks delivered after its `PHASE <- 0` left it; nothing else
changes but the stream. With no tick, or none deliverable, the stream gains the arm alone and PHASE is 0; where no halt is
asked for, every tick is delivered. -/
def Obligations.EnableRunsToItsEnd : Prop :=
  ∀ (s : State) (ws : List Word) (rest : List Move) (k₀ k₁ k₂ : Nat), s.fault = .none → s.seq = .idle → s.init = true →
    (s.tickDeliverable = true → k₀ + k₁ + k₂ ≠ 0 → s.storeInRange) →
    s.commands = encode .enable :: ws → s.agenda = ticksBetween k₀ k₁ k₂ rest →
    ∃ (ph : Half) (m : Nat) (cs : List BackendCmd),
      run (4 + k₀ + k₁ + k₂) s = .next { s with
        phase := ph, halt := .none, active := true, notify := true, commands := ws, agenda := rest
        out := s.out ++ cs ++ [.stop, .start .tick, .enableNotify], responses := s.responses ++ [0] } ∧
      m ≤ k₁ + k₂ ∧ ph.toNat = m % (256 * s.cfgPeriod) ∧
      (s.tickDeliverable = false ∨ k₀ + k₁ + k₂ = 0 → m = 0 ∧ cs = []) ∧
      (s.tickDeliverable = true → s.halt = .none → m = k₁ + k₂ ∧ cs.length = 5 * (k₀ + k₁ + k₂))

/-- `PULSE_ONCE` at each of its micro-steps (R144): at level 0 the phase is 0 and the period is not read (decision D35); above
0 the phase is 128 * P, the first of index 64 (decision D11). -/
def Obligations.PulseOnceMicroSteps : Prop :=
  ∀ s : State, s.fault = .none →
    (s.seq = .idle → s.init = true → exec .pulseOnce s = .next { s with seq := .pulseOnce .readLevel }) ∧
    (s.seq = .pulseOnce .readLevel → s.cfgLevel = 0 →
      exec .pulseOnce s = .next { s with phase := 0, seq := .pulseOnce .halt }) ∧
    (s.seq = .pulseOnce .readLevel → 1 ≤ s.cfgLevel → s.storeInRange →
      ∃ ph : Half, ph.toNat = 128 * s.cfgPeriod ∧ waveIndex ph s.cfgPeriod = 64 ∧
        waveIndex (ph - 1) s.cfgPeriod = 63 ∧
        exec .pulseOnce s = .next { s with phase := ph, seq := .pulseOnce .halt }) ∧
    (s.seq = .pulseOnce .halt → exec .pulseOnce s = .next { s with halt := .atOn, seq := .pulseOnce .arm }) ∧
    (s.seq = .pulseOnce .arm → exec .pulseOnce s = .next { s with
      active := true, notify := true, seq := .idle
      out := s.out ++ [.stop, .start .tick, .enableNotify], responses := s.responses ++ [0] })

/-- `PULSE_ONCE` as a whole, from any FSM state and with any number of ticks at each of its interleaving points (R140, R144,
R244): it always ends active, with HALT_AT_ON and PHASE as the `m` ticks delivered after its PHASE store left it; nothing
else changes but the stream. The period matters only above level 0 or when a tick is delivered (decision D35). -/
def Obligations.PulseOnceRunsToItsEnd : Prop :=
  ∀ (s : State) (ws : List Word) (rest : List Move) (k₀ k₁ k₂ : Nat), s.fault = .none → s.seq = .idle → s.init = true →
    s.cfgLevel ≤ s.bl.toNat → (s.cfgLevel ≠ 0 → s.storeInRange) →
    (s.tickDeliverable = true → k₀ + k₁ + k₂ ≠ 0 → s.storeInRange) →
    s.commands = encode .pulseOnce :: ws → s.agenda = ticksBetween k₀ k₁ k₂ rest →
    ∃ (ph : Half) (m : Nat) (cs : List BackendCmd),
      run (4 + k₀ + k₁ + k₂) s = .next { s with
        phase := ph, halt := .atOn, active := true, notify := true, commands := ws, agenda := rest
        out := s.out ++ cs ++ [.stop, .start .tick, .enableNotify], responses := s.responses ++ [0] } ∧
      m ≤ k₁ + k₂ ∧
      ph.toNat = ((if s.cfgLevel = 0 then 0 else 128 * s.cfgPeriod) + m) % (256 * s.cfgPeriod) ∧
      (s.tickDeliverable = false ∨ k₀ + k₁ + k₂ = 0 → m = 0 ∧ cs = [])

/-- `DISABLE` at each of its micro-steps (R146), the first the DEACTIVATE of R142 (decision D14); PHASE and HALT stay
(decision D12). -/
def Obligations.DisableMicroSteps : Prop :=
  ∀ s : State, s.fault = .none →
    (s.seq = .idle → s.init = true → exec .disable s = .next { s with seq := .disable .deactivate }) ∧
    (s.seq = .disable .deactivate → exec .disable s = .next { s with
      active := false, notify := false, out := s.out ++ [.stop, .start .null], seq := .disable .readLevel }) ∧
    (s.seq = .disable .readLevel → s.cfgLevel ≤ s.bl.toNat → exec .disable s = .next { s with
      seq := .disable (.body (if s.cfgLevel = 0 then .disable 0 else .enable (BitVec.ofNat 16 s.cfgLevel))) }) ∧
    (∀ c : Channel, c ≠ 4 → s.seq = .disable (.body (.disable c)) → exec .disable s = .next { s with
      out := s.out ++ [.disableCh c], seq := .disable (.body (.disable (c + 1))) }) ∧
    (s.seq = .disable (.body (.disable 4)) → exec .disable s = .next { s with
      out := s.out ++ [.disableCh 4], seq := .idle, responses := s.responses ++ [0] }) ∧
    (∀ L : Half, s.seq = .disable (.body (.enable L)) → s.active = false → exec .disable s = .next { s with
      out := s.out ++ enableAll (staticDuty s.bl L), seq := .idle, responses := s.responses ++ [0] })

/-- `DISABLE` and then `SET L`, the store and the parameters as they are: the block is inactive, the stored level was
applied, and the static setter writes its duty again (R146, R150). -/
def Obligations.DisableThenSetRestoresTheStaticLevel : Prop :=
  ∀ (s : State) (L : Half) (ws : List Word) (rest : List Move), s.fault = .none → s.seq = .idle → s.init = true →
    s.cfgLevel ≤ s.bl.toNat → L ≤ s.bl → s.commands = encode .disable :: encode (.set L) :: ws →
    let L₀ := BitVec.ofNat 16 s.cfgLevel
    let n := 3 + bodySteps L₀ + (1 + bodySteps L)
    s.agenda = foregroundMoves n rest →
    run n s = .next { s with
      active := false, notify := false, commands := ws, agenda := rest
      out := s.out ++ [.stop, .start .null] ++ settled s.bl L₀ ++ settled s.bl L
      responses := s.responses ++ [0, 0] }

/-- `REQ_SELF_DISABLE` at both of its micro-steps (R147): only HALT changes, to HALT_AT_OFF at level 0, else HALT_AT_ON. -/
def Obligations.ReqSelfDisableMicroSteps : Prop :=
  ∀ s : State, s.fault = .none →
    (s.seq = .idle → s.init = true → exec .reqSelfDisable s = .next { s with seq := .reqSelfDisable }) ∧
    (s.seq = .reqSelfDisable → s.cfgLevel ≤ s.bl.toNat → exec .reqSelfDisable s = .next { s with
      halt := if s.cfgLevel = 0 then .atOff else .atOn, seq := .idle, responses := s.responses ++ [0] })

/-- `IS_ACTIVE` answers ACTIVE in bit 0 and changes nothing else (R148, R75). That decode and answer are one micro-step is the
model's reading of R148 through 30_encoding.md section 2 (R77) (log entry 6, DEDUCED, unsafe). -/
def Obligations.IsActiveAnswersActive : Prop :=
  ∀ s : State, s.fault = .none → s.seq = .idle → s.init = true →
    exec .isActive s = .next { s with responses := s.responses ++ [if s.active then 1 else 0] }

/-- ACTIVE goes from 0 to 1 only when the foreground runs an ARM (R148, a corner case the spec derives). -/
def Obligations.ActivityRisesOnlyByArm : Prop :=
  ∀ s t : State, step s = .next t → s.active = false → t.active = true →
    s.nextMove = .foreground ∧ s.seq.atArm = true ∧ t.notify = true ∧
      t.out = s.out ++ [.stop, .start .tick, .enableNotify]

/-! ## The tick -/

/-- A delivered tick with admitted inputs (R170 to R179): the phase, the index of the new phase, DEACTIVATE if the halt
target is met, then the frame to the five channels; nothing else changes, SEQ least of all (R209). The scaler is whichever
SCALE_VARIANT says (decision D10). -/
def Obligations.TickAdvancesAndWritesItsFrame : Prop :=
  ∀ s : State, s.fault = .none → s.active = true → s.notify = true → s.storeInRange →
    let P := s.cfgPeriod
    let phase := (s.phase.toNat + 1) % (P * 256)
    let idx := phase / (2 * P)
    let halts := (s.halt = .atOn ∧ idx = 64) ∨ (s.halt = .atOff ∧ idx = 127)
    let x := (Memory.read s.rom (BitVec.ofNat 7 idx)).toNat
    let scaled := match s.scaleVariant with
      | .doc => x / s.bl.toNat * s.cfgLevel
      | .upstreamX256 => x * 256 * s.cfgLevel / s.bl.toNat
    idx < 128 ∧ ∃ (ph d : Half), ph.toNat = phase ∧ d.toNat = mapNat scaled ∧
      (halts → exec .tick s = .next { s with
        phase := ph, active := false, notify := false
        out := s.out ++ [.stop, .start .null] ++ [0, 1, 2, 3, 4].map (fun c => .enableCh c d) }) ∧
      (¬ halts → exec .tick s = .next { s with
        phase := ph, out := s.out ++ [0, 1, 2, 3, 4].map (fun c => .enableCh c d) })

/-- The phase accumulator (R172): a delivered tick leaves `(PHASE + 1) mod (P * 256)`, the sum exact, which is below
`256 * P`; at `P = 256` it is a free-running 16-bit counter; every duty it writes is the one of the new phase's index. -/
def Obligations.TickIsAModularCounter : Prop :=
  ∀ s : State, s.fault = .none → s.active = true → s.notify = true → s.storeInRange →
    ∃ t : State, exec .tick s = .next t ∧ t.phase.toNat = (s.phase.toNat + 1) % (s.cfgPeriod * 256) ∧
      t.phase.toNat < 256 * s.cfgPeriod ∧ (s.cfgPeriod = 256 → t.phase = s.phase + 1) ∧
      ∃ cs : List BackendCmd, t.out = s.out ++ cs ∧ ∀ c d, .enableCh c d ∈ cs →
        d = frameDuty s (waveIndex t.phase s.cfgPeriod) (BitVec.ofNat 16 s.cfgLevel)

/-- The halt check (R175): a delivered tick ends with ACTIVE = 0 exactly when the index of the new phase is the target of the
halt mode, and it writes its frame whether or not it halted. -/
def Obligations.TickHaltsExactlyAtItsTarget : Prop :=
  ∀ s t : State, s.tickDeliverable = true → s.storeInRange → exec .tick s = .next t →
    let idx := t.phase.toNat / (2 * s.cfgPeriod)
    (t.active = false ↔ (s.halt = .atOn ∧ idx = 64) ∨ (s.halt = .atOff ∧ idx = 127)) ∧ t.notify = t.active ∧
      t.halt = s.halt ∧ ∃ d : Half,
        t.out = s.out ++ (if t.active then [] else [.stop, .start .null]) ++ enableAll d

/-- Each index k is selected by exactly the 2 * P phases from 2 * P * k on (R174). -/
def Obligations.IndexSelectsItsPhases : Prop :=
  ∀ (P : Nat) (phase : Half) (k : Index), 1 ≤ P → P ≤ 256 → phase.toNat < 256 * P →
    (waveIndex phase P = k ↔ 2 * P * k.toNat ≤ phase.toNat ∧ phase.toNat ≤ 2 * P * k.toNat + 2 * P - 1)

/-- A tick that R205 does not allow does not occur and leaves nothing behind (R206; decision D32): that it is a next state
equal to the one before is the model's reading (log entry 15). -/
def Obligations.UndeliveredTickLeavesNothing : Prop :=
  ∀ s : State, s.fault = .none → s.active = false ∨ s.notify = false → exec .tick s = .next s

/-- A tick's faults: the period is checked before the level, and a tick that faults writes nothing and emits nothing
(R170, R171, R203; decisions D8, D26). -/
def Obligations.TickFaultsOnPeriodFirst : Prop :=
  ∀ s : State, s.fault = .none → s.active = true → s.notify = true →
    (s.cfgPeriod = 0 ∨ 256 < s.cfgPeriod → exec .tick s = .next { s with
      fault := .periodRange, faultInfo := BitVec.ofNat 32 s.cfgPeriod, seq := .idle }) ∧
    (1 ≤ s.cfgPeriod → s.cfgPeriod ≤ 256 → s.bl.toNat < s.cfgLevel → exec .tick s = .next { s with
      fault := .levelRange, faultInfo := BitVec.ofNat 32 s.cfgLevel, seq := .idle })

/-- The peak of a breathing frame under each scaler, for an admitted level: at most 28 under DOC whatever the level, at most
64770 under UPSTREAM_X256 (R178; decision D10, the second formula is general knowledge). -/
def Obligations.FrameDutyIsBounded : Prop :=
  ∀ (s : State) (idx : Index) (L : Half), L ≤ s.bl →
    (s.scaleVariant = .doc → (frameDuty s idx L).toNat ≤ 28) ∧
    (s.scaleVariant = .upstreamX256 → (frameDuty s idx L).toNat ≤ 64770)

/-- The wrap property with its conditions (R180): an unchanged period, no halt, no command, and a phase below 256 * P: after
256 * P ticks the phase is back. -/
def Obligations.PhaseReturnsAfterAFullCycle : Prop :=
  ∀ (s : State) (rest : List Move), s.fault = .none → s.active = true → s.notify = true → s.halt = .none →
    s.storeInRange → s.phase.toNat < 256 * s.cfgPeriod → s.agenda = tickMoves (256 * s.cfgPeriod) rest →
    ∃ t : State, run (256 * s.cfgPeriod) s = .next t ∧ t.phase = s.phase ∧ t.active = true ∧ t.fault = .none ∧
      t.seq = s.seq ∧ t.agenda = rest

/-- A pulse at level 0 halts on its 128 * P-th tick and on none before, every frame of it dark (R144, R181, corner cases the
spec derives). -/
def Obligations.DarkPulseHaltsOnTick128P : Prop :=
  ∀ (s : State) (rest : List Move), s.fault = .none → s.active = true → s.notify = true → s.halt = .atOn →
    s.phase = 0 → s.cfgLevel = 0 → 1 ≤ s.cfgPeriod → s.cfgPeriod ≤ 256 →
    s.agenda = tickMoves (128 * s.cfgPeriod) rest →
    (∀ n, n < 128 * s.cfgPeriod → ∃ t : State, run n s = .next t ∧ t.active = true) ∧
    ∃ (t : State) (cs : List BackendCmd), run (128 * s.cfgPeriod) s = .next t ∧ t.active = false ∧ t.notify = false ∧
      t.phase.toNat = 128 * s.cfgPeriod ∧ t.out = s.out ++ cs ∧
      cs.length = 5 * (128 * s.cfgPeriod) + 2 ∧ ∀ c d, .enableCh c d ∈ cs → d = 0

/-- `PULSE_ONCE` at a level above 0, any number of ticks at its interleaving points, then one tick: that tick halts exactly if
the phase it gives still has index 64, at once if fewer than `2 * P - 1` ticks were delivered since the PHASE store; its frame
follows, and the static level is not restored (R144, R145, R244, 90_conflicts.md C4). -/
def Obligations.BrightPulseHaltsOnItsFirstTick : Prop :=
  ∀ (s : State) (ws : List Word) (rest : List Move) (k₀ k₁ k₂ : Nat), s.fault = .none → s.seq = .idle → s.init = true →
    1 ≤ s.cfgLevel → s.storeInRange → s.commands = encode .pulseOnce :: ws →
    s.agenda = ticksBetween k₀ k₁ k₂ (.event tickWord :: rest) →
    ∃ (t : State) (m : Nat) (cs : List BackendCmd), run (5 + k₀ + k₁ + k₂) s = .next t ∧
      m ≤ k₁ + k₂ ∧ (s.tickDeliverable = false ∨ k₀ + k₁ + k₂ = 0 → m = 0 ∧ cs = []) ∧
      t.phase.toNat = (128 * s.cfgPeriod + m + 1) % (256 * s.cfgPeriod) ∧
      (t.active = false ↔ t.phase.toNat / (2 * s.cfgPeriod) = 64) ∧ (m + 1 < 2 * s.cfgPeriod → t.active = false) ∧
      t.notify = t.active ∧ t.halt = .atOn ∧ t.responses = s.responses ++ [0] ∧
      t.out = s.out ++ cs ++ [.stop, .start .tick, .enableNotify] ++ (if t.active then [] else [.stop, .start .null]) ++
        enableAll (frameDuty s (waveIndex t.phase s.cfgPeriod) (BitVec.ofNat 16 s.cfgLevel))

/-- A delivered tick, halting or not, leaves all five channels of the reference backend (decision D24, log entry 17) at its own
duty: the one of its new phase's index and of the level it read (R6, R175, R179, R243). -/
def Obligations.TickLeavesAllChannelsAtOneDuty : Prop :=
  ∀ s t : State, s.tickDeliverable = true → exec .tick s = .next t → t.fault = .none →
    ∀ c : Channel, t.backend.channels[c] =
      some (frameDuty s (waveIndex (nextPhase s.phase s.cfgPeriod) s.cfgPeriod) (BitVec.ofNat 16 s.cfgLevel))

/-! ## Faults and reset -/

/-- `raise Fault` keeps the first fault, ends the command, delivers no response, and touches nothing else (R200; decision D23). -/
def Obligations.RaiseKeepsTheFirstFault : Prop :=
  ∀ (s : State) (c : FaultCode) (v : Word),
    (s.fault = .none → s.raise c v = { s with fault := c, faultInfo := v, seq := .idle }) ∧
    (s.fault ≠ .none → s.raise c v = { s with seq := .idle })

/-- An instruction that ends in a fault has no other effect (R200): every check comes before any effect of its step. -/
def Obligations.FaultHasNoOtherEffect : Prop :=
  ∀ (i : Instr) (s t : State), exec i s = .next t → t.fault ≠ .none →
    t = { s with fault := t.fault, faultInfo := t.faultInfo, seq := .idle } ∧ s.fault = .none

/-- A faulted block runs no instruction and takes no step of its agents; a power-on leaves the fault state (R200, R230). That
it stops with a named fault is the model's reading of 'takes no step' (log entry 13). -/
def Obligations.FaultedBlockWaitsForReset : Prop :=
  ∀ s : State, s.fault ≠ .none →
    (∀ i, exec i s = .fault .stopped) ∧
    (s.nextMove = .foreground → step s = .fault .stopped) ∧ (∀ w, s.nextMove = .event w → step s = .fault .stopped) ∧
    (s.nextMove = .powerOn → ∃ t, step s = .next t ∧ t.fault = .none ∧ t.seq = .idle)

/-- The decode checks that need the state, in the order of R77, each with the command word recorded (R77, R201, R203;
decisions D5, D19, D26). -/
def Obligations.AdmissionFaultsInOrder : Prop :=
  ∀ s : State, s.fault = .none → s.seq = .idle →
    (s.init = true → exec .initPorts s = .next { s with fault := .reinit, faultInfo := 0x00000001 }) ∧
    (s.init = false → ∀ i : Instr, i.port = .command → i ≠ .initPorts → (∀ v, i ≠ .map v) →
      exec i s = .next { s with fault := .notInit, faultInfo := encode i }) ∧
    (s.init = true → ∀ L : Half, s.bl < L →
      exec (.set L) s = .next { s with fault := .levelRange, faultInfo := encode (.set L) })

/-- The range faults of the foreground's config reads (R125, R144, R146, R147, R201; decisions D8, D26): the level before the
period, nothing written. -/
def Obligations.StoreReadsFaultOutOfRange : Prop :=
  ∀ s : State, s.fault = .none →
    (s.bl.toNat < s.cfgLevel → ∀ i : Instr,
      (i = .initPorts ∧ s.seq = .initPorts .readLevel) ∨ (i = .pulseOnce ∧ s.seq = .pulseOnce .readLevel) ∨
        (i = .disable ∧ s.seq = .disable .readLevel) ∨ (i = .reqSelfDisable ∧ s.seq = .reqSelfDisable) →
      exec i s = .next { s with fault := .levelRange, faultInfo := BitVec.ofNat 32 s.cfgLevel, seq := .idle }) ∧
    (s.seq = .pulseOnce .readLevel → 1 ≤ s.cfgLevel → s.cfgLevel ≤ s.bl.toNat → s.cfgPeriod = 0 ∨ 256 < s.cfgPeriod →
      exec .pulseOnce s = .next { s with
        fault := .periodRange, faultInfo := BitVec.ofNat 32 s.cfgPeriod, seq := .idle })

/-- Software that keeps its duties (R245) never meets a fault: every step from a state without one goes on without one. -/
def Obligations.DutiesKeptNeverFault : Prop :=
  ∀ s : State, s.fault = .none → s.dutiesKept → ∃ t : State, step s = .next t ∧ t.fault = .none

/-- Power-on sets every register to its reset value and emits nothing (R230; the values are decision D7). That it empties both
streams and leaves the parameters, the ROM, the inputs and the outside world's lists is the model's choice (log entry 10). -/
def Obligations.PowerOnResetsTheRegisters : Prop :=
  ∀ s : State, s.nextMove = .powerOn → step s = .next { s.takeMove with
    phase := 0, halt := .none, active := false, notify := false, init := false, fault := .none, faultInfo := 0
    seq := .idle, out := [], responses := [] }

/-! ## Whole-machine rules -/

/-- Each register of 10_state.md R22 to R27 has only the writers listed there, the enable path of `INIT_PORTS` being ENABLE's:
FAULT and FAULT_INFO change by a raise alone, which ends the command, and once there is a fault no instruction answers. SEQ is
the foreground's (R21): a tick changes it by a raise alone. -/
def Obligations.RegistersHaveOnlyTheirWriters : Prop :=
  ∀ (i : Instr) (s t : State), exec i s = .next t →
    (t.phase ≠ s.phase → i = .enable ∨ i = .pulseOnce ∨ i = .initPorts ∨ i = .tick) ∧
    (t.halt ≠ s.halt → i = .enable ∨ i = .pulseOnce ∨ i = .initPorts ∨ i = .reqSelfDisable) ∧
    (t.active ≠ s.active ∨ t.notify ≠ s.notify →
      i = .enable ∨ i = .pulseOnce ∨ i = .initPorts ∨ i = .disable ∨ i = .tick) ∧
    (t.init ≠ s.init → i = .initPorts) ∧
    (t.fault ≠ s.fault ∨ t.faultInfo ≠ s.faultInfo → t.seq = .idle ∧ ∃ c v, c ≠ .none ∧ t = s.raise c v) ∧
    s.fault = .none ∧
    (t.seq ≠ s.seq → i ≠ .tick ∨ ∃ c v, c ≠ .none ∧ t = s.raise c v)

/-- The frame of every instruction: no byte of the ROM, no parameter, no input and nothing of the outside world changes, and
both streams only grow at their end (R32, R53, R58). -/
def Obligations.InstructionsLeaveTheWorldAlone : Prop :=
  ∀ (i : Instr) (s t : State), exec i s = .next t →
    (∀ idx : Index, Memory.read t.rom idx = Memory.read s.rom idx) ∧ t.bl = s.bl ∧ t.scaleVariant = s.scaleVariant ∧
    t.cfgLevel = s.cfgLevel ∧ t.cfgPeriod = s.cfgPeriod ∧ t.cfgBreathing = s.cfgBreathing ∧
    t.commands = s.commands ∧ t.agenda = s.agenda ∧ t.moves = s.moves ∧
    (∃ cs, t.out = s.out ++ cs) ∧ ∃ rs, t.responses = s.responses ++ rs

/-- WAVE never changes; only a tick reads it, and only at the index of its new phase: a ROM changed at will elsewhere changes
nothing else of any step (R32). -/
def Obligations.WaveformIsConstantAndOnlyTheTickReadsIt : Prop :=
  (∀ s t : State, step s = .next t → ∀ idx : Index, Memory.read t.rom idx = Memory.read s.rom idx) ∧
  (∀ (s : State) (m : Memory), s.nextMove ≠ .event tickWord → step { s with rom := m } = withRom m (step s)) ∧
  (∀ (i : Instr) (s : State) (m : Memory), i ≠ .tick → exec i { s with rom := m } = withRom m (exec i s)) ∧
  ∀ (s : State) (m : Memory),
    let idx := waveIndex (nextPhase s.phase s.cfgPeriod) s.cfgPeriod
    Memory.read m idx = Memory.read s.rom idx → exec .tick { s with rom := m } = withRom m (exec .tick s)

/-- The invariant holds right after reset, for every value of the parameters (R29, R31, R39). -/
def Obligations.ResetMeetsTheInvariant : Prop := State.reset.Inv

/-- Every step keeps the invariant: NOTIFY implies ACTIVE (R29), ACTIVE and NOTIFY mirror the backend (R24, R25), a faulted
block is idle (R200), commands stand at legal points, and the ROM and BL stay admitted. -/
def Obligations.StepKeepsTheInvariant : Prop :=
  ∀ s t : State, s.Inv → step s = .next t → t.Inv

/-- The values PHASE and HALT hold while the block is inactive and idle cannot be observed (R41, which the spec derives):
whatever they are, every run shows the same stream, responses, fault output and activity. -/
def Obligations.HiddenPhaseAndHaltAreUnobservable : Prop :=
  ∀ (s : State) (p : Half) (h : HaltMode) (n : Nat), s.active = false → s.seq = .idle →
    observe (run n s) = observe (run n { s with phase := p, halt := h })

/-- A tick does not disturb the command it interrupts (R208, R209; decision D16): the foreground's SEQ is as it was, and no
response appears. -/
def Obligations.TickLeavesTheForegroundWhereItWas : Prop :=
  ∀ s t : State, exec .tick s = .next t → t.fault = .none → t.seq = s.seq ∧ t.responses = s.responses ∧ t.init = s.init

/-- R140's table, row by row, for the FSM state of R28, in every state that meets the invariant. A command's row is said of the
micro-step that completes it, so it holds whatever ticks fell before; where the table names a PHASE, of the PHASE store. A tick
makes the state INACTIVE exactly if it is delivered and the halt condition holds at the new index (R175). Every raise keeps
the state; so does `MAP`, which is no row of the table (R109). -/
def Obligations.FsmStateMovesAsTheTableSays : Prop :=
  ∀ s t : State, s.Inv →
    (completes .enable s t → t.breathing = .running ∧ t.out = s.out ++ [.stop, .start .tick, .enableNotify]) ∧
    (s.seq = .enable .phase → exec .enable s = .next t → t.phase = 0) ∧
    (completes .pulseOnce s t → t.breathing = .haltOn ∧ t.out = s.out ++ [.stop, .start .tick, .enableNotify]) ∧
    (s.seq = .pulseOnce .readLevel → exec .pulseOnce s = .next t → t.fault = .none →
      t.phase.toNat = if s.cfgLevel = 0 then 0 else 128 * s.cfgPeriod) ∧
    (completes .disable s t → t.breathing = .inactive ∧
      ((s.seq = .disable (.body (.disable 4)) ∧ t.out = s.out ++ [.disableCh 4]) ∨
        ∃ L, s.seq = .disable (.body (.enable L)) ∧ t.out = s.out ++ enableAll (staticDuty s.bl L))) ∧
    (completes .reqSelfDisable s t → t.active = s.active ∧ t.halt = (if s.cfgLevel = 0 then .atOff else .atOn) ∧
      t = { s with halt := t.halt, seq := .idle, responses := s.responses ++ [0] }) ∧
    (∀ i : Instr, (∃ L, i = .set L) ∨ i = .isActive ∨ (∃ v, i = .map v) → exec i s = .next t →
      t.breathing = s.breathing) ∧
    (completes .initPorts s t →
      if s.seq = .initPorts .readBreathing then s.cfgBreathing = false ∧ t.breathing = .inactive
      else s.seq = .initPorts (.enable .arm) ∧ t.breathing = .running) ∧
    (s.breathing ≠ .inactive → s.seq = .idle → exec .initPorts s = .next t → t.fault = .reinit) ∧
    (s.breathing = .inactive → exec .tick s = .next t → t = s) ∧
    (exec .tick s = .next t → t.fault = .none →
      let idx := waveIndex (nextPhase s.phase s.cfgPeriod) s.cfgPeriod
      t.breathing = if s.tickDeliverable ∧ ((s.halt = .atOn ∧ idx = 64) ∨ (s.halt = .atOff ∧ idx = 127)) then .inactive
        else s.breathing) ∧
    ∀ i : Instr, exec i s = .next t → t.fault ≠ .none → t.breathing = s.breathing
end

