-- ==== Sys2Proof/Laws/Encoding.lean ====
section
/-! SUPPORT. The fields of an encoded word, and of a word taken apart and put together again. -/

namespace Sys2Proof

theorem opcField_toNat (w : Word) : (opcField w).toNat = w.toNat % 16 := by
  simp [opcField, BitVec.extractLsb'_toNat]

theorem rsvField_toNat (w : Word) : (rsvField w).toNat = w.toNat / 16 % 4096 := by
  simp [rsvField, BitVec.extractLsb'_toNat, Nat.shiftRight_eq_div_pow]

theorem immField_toNat (w : Word) : (immField w).toNat = w.toNat / 65536 := by
  have := w.isLt
  simp [immField, BitVec.extractLsb'_toNat, Nat.shiftRight_eq_div_pow]
  omega

/-- A zero `RSV` in front of an `OPC` adds nothing. -/
theorem rsv_append : ∀ o : BitVec 4, (0#12 ++ o).toNat = o.toNat := by decide

theorem encode_toNat (i : Instr) : (encode i).toNat = (operand i).toNat * 65536 + (opcode i).toNat := by
  have h : (opcode i).toNat < 2 ^ 4 := (opcode i).isLt
  have low : (0#12 ++ opcode i).toNat = (opcode i).toNat := rsv_append _
  have whole : (encode i).toNat = (operand i).toNat <<< 16 ||| (0#12 ++ opcode i).toNat :=
    BitVec.toNat_append (operand i) (0#12 ++ opcode i)
  rw [whole, low, ← Nat.shiftLeft_add_eq_or_of_lt (by omega), Nat.shiftLeft_eq]

@[simp] theorem opcField_encode (i : Instr) : opcField (encode i) = opcode i := by
  have h : (opcode i).toNat < 2 ^ 4 := (opcode i).isLt
  apply BitVec.eq_of_toNat_eq
  rw [opcField_toNat, encode_toNat]
  omega

@[simp] theorem rsvField_encode (i : Instr) : rsvField (encode i) = 0 := by
  have h : (opcode i).toNat < 2 ^ 4 := (opcode i).isLt
  apply BitVec.eq_of_toNat_eq
  rw [rsvField_toNat, encode_toNat]
  simp
  omega

@[simp] theorem immField_encode (i : Instr) : immField (encode i) = operand i := by
  have h : (opcode i).toNat < 2 ^ 4 := (opcode i).isLt
  apply BitVec.eq_of_toNat_eq
  rw [immField_toNat, encode_toNat]
  omega

/-- A word is its three fields (R70). -/
theorem word_toNat_of_fields (w : Word) :
    w.toNat = (immField w).toNat * 65536 + (rsvField w).toNat * 16 + (opcField w).toNat := by
  have := w.isLt
  rw [opcField_toNat, rsvField_toNat, immField_toNat]
  omega

/-- A word put together from two parts. -/
theorem append_toNat {n m : Nat} (a : BitVec n) (b : BitVec m) : (a ++ b).toNat = a.toNat * 2 ^ m + b.toNat := by
  rw [BitVec.toNat_append, ← Nat.shiftLeft_add_eq_or_of_lt b.isLt, Nat.shiftLeft_eq]

theorem noOperand_instr {w : Word} {i j : Instr} : noOperand w i = .instr j ↔ immField w = 0 ∧ i = j := by
  unfold noOperand
  split <;> simp_all

/-- Each instruction is well formed on its own port and on no other (R71, R74). -/
theorem wellFormed_iff (i : Instr) (p : Port) : i.wellFormed p = true ↔ p = i.port := by
  cases i <;> cases p <;> simp [Instr.wellFormed, Instr.port]

end Sys2Proof
end

