-- ==== Sys2Proof/Laws/PerInstr.lean ====
section
/-! SUPPORT. The family RoundTrip, one lemma per constructor: on the instruction's own port, and on no other, the decoder reads the
instruction from its word. -/

namespace Sys2Proof.Laws.RoundTrip

def Statement (i : Instr) : Prop :=
  decode i.port (encode i) = .instr i ∧ ∀ p : Port, i.wellFormed p = true ↔ p = i.port

theorem initPorts : Statement .initPorts := ⟨by decide, wellFormed_iff _⟩

theorem set (level : Half) : Statement (.set level) :=
  ⟨by simp [decode, Instr.port, decodeCommand, opcode, operand], wellFormed_iff _⟩

theorem enable : Statement .enable := ⟨by decide, wellFormed_iff _⟩

theorem pulseOnce : Statement .pulseOnce := ⟨by decide, wellFormed_iff _⟩

theorem disable : Statement .disable := ⟨by decide, wellFormed_iff _⟩

theorem reqSelfDisable : Statement .reqSelfDisable := ⟨by decide, wellFormed_iff _⟩

theorem isActive : Statement .isActive := ⟨by decide, wellFormed_iff _⟩

theorem map (linear : Half) : Statement (.map linear) :=
  ⟨by simp [decode, Instr.port, decodeCommand, opcode, operand], wellFormed_iff _⟩

theorem tick : Statement .tick := ⟨by decide, wellFormed_iff _⟩

end Sys2Proof.Laws.RoundTrip
end

