-- ==== Sys2Proof/Laws/State.lean ====
section
/-! SUPPORT. One lemma per field per update of the state, so that no later proof unfolds a record update. -/

namespace Sys2Proof.Machine

variable (s : State)

/-! ## setPhase -/

@[simp] theorem State.setPhase_phase (v : Half) : (s.setPhase v).phase = v := rfl
@[simp] theorem State.setPhase_halt (v : Half) : (s.setPhase v).halt = s.halt := rfl
@[simp] theorem State.setPhase_active (v : Half) : (s.setPhase v).active = s.active := rfl
@[simp] theorem State.setPhase_notify (v : Half) : (s.setPhase v).notify = s.notify := rfl
@[simp] theorem State.setPhase_init (v : Half) : (s.setPhase v).init = s.init := rfl
@[simp] theorem State.setPhase_fault (v : Half) : (s.setPhase v).fault = s.fault := rfl
@[simp] theorem State.setPhase_faultInfo (v : Half) : (s.setPhase v).faultInfo = s.faultInfo := rfl
@[simp] theorem State.setPhase_seq (v : Half) : (s.setPhase v).seq = s.seq := rfl
@[simp] theorem State.setPhase_rom (v : Half) : (s.setPhase v).rom = s.rom := rfl
@[simp] theorem State.setPhase_bl (v : Half) : (s.setPhase v).bl = s.bl := rfl
@[simp] theorem State.setPhase_scaleVariant (v : Half) : (s.setPhase v).scaleVariant = s.scaleVariant := rfl
@[simp] theorem State.setPhase_cfgLevel (v : Half) : (s.setPhase v).cfgLevel = s.cfgLevel := rfl
@[simp] theorem State.setPhase_cfgPeriod (v : Half) : (s.setPhase v).cfgPeriod = s.cfgPeriod := rfl
@[simp] theorem State.setPhase_cfgBreathing (v : Half) : (s.setPhase v).cfgBreathing = s.cfgBreathing := rfl
@[simp] theorem State.setPhase_commands (v : Half) : (s.setPhase v).commands = s.commands := rfl
@[simp] theorem State.setPhase_agenda (v : Half) : (s.setPhase v).agenda = s.agenda := rfl
@[simp] theorem State.setPhase_moves (v : Half) : (s.setPhase v).moves = s.moves := rfl
@[simp] theorem State.setPhase_out (v : Half) : (s.setPhase v).out = s.out := rfl
@[simp] theorem State.setPhase_responses (v : Half) : (s.setPhase v).responses = s.responses := rfl

/-! ## setHalt -/

@[simp] theorem State.setHalt_phase (h : HaltMode) : (s.setHalt h).phase = s.phase := rfl
@[simp] theorem State.setHalt_halt (h : HaltMode) : (s.setHalt h).halt = h := rfl
@[simp] theorem State.setHalt_active (h : HaltMode) : (s.setHalt h).active = s.active := rfl
@[simp] theorem State.setHalt_notify (h : HaltMode) : (s.setHalt h).notify = s.notify := rfl
@[simp] theorem State.setHalt_init (h : HaltMode) : (s.setHalt h).init = s.init := rfl
@[simp] theorem State.setHalt_fault (h : HaltMode) : (s.setHalt h).fault = s.fault := rfl
@[simp] theorem State.setHalt_faultInfo (h : HaltMode) : (s.setHalt h).faultInfo = s.faultInfo := rfl
@[simp] theorem State.setHalt_seq (h : HaltMode) : (s.setHalt h).seq = s.seq := rfl
@[simp] theorem State.setHalt_rom (h : HaltMode) : (s.setHalt h).rom = s.rom := rfl
@[simp] theorem State.setHalt_bl (h : HaltMode) : (s.setHalt h).bl = s.bl := rfl
@[simp] theorem State.setHalt_scaleVariant (h : HaltMode) : (s.setHalt h).scaleVariant = s.scaleVariant := rfl
@[simp] theorem State.setHalt_cfgLevel (h : HaltMode) : (s.setHalt h).cfgLevel = s.cfgLevel := rfl
@[simp] theorem State.setHalt_cfgPeriod (h : HaltMode) : (s.setHalt h).cfgPeriod = s.cfgPeriod := rfl
@[simp] theorem State.setHalt_cfgBreathing (h : HaltMode) : (s.setHalt h).cfgBreathing = s.cfgBreathing := rfl
@[simp] theorem State.setHalt_commands (h : HaltMode) : (s.setHalt h).commands = s.commands := rfl
@[simp] theorem State.setHalt_agenda (h : HaltMode) : (s.setHalt h).agenda = s.agenda := rfl
@[simp] theorem State.setHalt_moves (h : HaltMode) : (s.setHalt h).moves = s.moves := rfl
@[simp] theorem State.setHalt_out (h : HaltMode) : (s.setHalt h).out = s.out := rfl
@[simp] theorem State.setHalt_responses (h : HaltMode) : (s.setHalt h).responses = s.responses := rfl

/-! ## goto -/

@[simp] theorem State.goto_phase (q : Seq) : (s.goto q).phase = s.phase := rfl
@[simp] theorem State.goto_halt (q : Seq) : (s.goto q).halt = s.halt := rfl
@[simp] theorem State.goto_active (q : Seq) : (s.goto q).active = s.active := rfl
@[simp] theorem State.goto_notify (q : Seq) : (s.goto q).notify = s.notify := rfl
@[simp] theorem State.goto_init (q : Seq) : (s.goto q).init = s.init := rfl
@[simp] theorem State.goto_fault (q : Seq) : (s.goto q).fault = s.fault := rfl
@[simp] theorem State.goto_faultInfo (q : Seq) : (s.goto q).faultInfo = s.faultInfo := rfl
@[simp] theorem State.goto_seq (q : Seq) : (s.goto q).seq = q := rfl
@[simp] theorem State.goto_rom (q : Seq) : (s.goto q).rom = s.rom := rfl
@[simp] theorem State.goto_bl (q : Seq) : (s.goto q).bl = s.bl := rfl
@[simp] theorem State.goto_scaleVariant (q : Seq) : (s.goto q).scaleVariant = s.scaleVariant := rfl
@[simp] theorem State.goto_cfgLevel (q : Seq) : (s.goto q).cfgLevel = s.cfgLevel := rfl
@[simp] theorem State.goto_cfgPeriod (q : Seq) : (s.goto q).cfgPeriod = s.cfgPeriod := rfl
@[simp] theorem State.goto_cfgBreathing (q : Seq) : (s.goto q).cfgBreathing = s.cfgBreathing := rfl
@[simp] theorem State.goto_commands (q : Seq) : (s.goto q).commands = s.commands := rfl
@[simp] theorem State.goto_agenda (q : Seq) : (s.goto q).agenda = s.agenda := rfl
@[simp] theorem State.goto_moves (q : Seq) : (s.goto q).moves = s.moves := rfl
@[simp] theorem State.goto_out (q : Seq) : (s.goto q).out = s.out := rfl
@[simp] theorem State.goto_responses (q : Seq) : (s.goto q).responses = s.responses := rfl

/-! ## emit -/

@[simp] theorem State.emit_phase (cs : List BackendCmd) : (s.emit cs).phase = s.phase := rfl
@[simp] theorem State.emit_halt (cs : List BackendCmd) : (s.emit cs).halt = s.halt := rfl
@[simp] theorem State.emit_active (cs : List BackendCmd) : (s.emit cs).active = s.active := rfl
@[simp] theorem State.emit_notify (cs : List BackendCmd) : (s.emit cs).notify = s.notify := rfl
@[simp] theorem State.emit_init (cs : List BackendCmd) : (s.emit cs).init = s.init := rfl
@[simp] theorem State.emit_fault (cs : List BackendCmd) : (s.emit cs).fault = s.fault := rfl
@[simp] theorem State.emit_faultInfo (cs : List BackendCmd) : (s.emit cs).faultInfo = s.faultInfo := rfl
@[simp] theorem State.emit_seq (cs : List BackendCmd) : (s.emit cs).seq = s.seq := rfl
@[simp] theorem State.emit_rom (cs : List BackendCmd) : (s.emit cs).rom = s.rom := rfl
@[simp] theorem State.emit_bl (cs : List BackendCmd) : (s.emit cs).bl = s.bl := rfl
@[simp] theorem State.emit_scaleVariant (cs : List BackendCmd) : (s.emit cs).scaleVariant = s.scaleVariant := rfl
@[simp] theorem State.emit_cfgLevel (cs : List BackendCmd) : (s.emit cs).cfgLevel = s.cfgLevel := rfl
@[simp] theorem State.emit_cfgPeriod (cs : List BackendCmd) : (s.emit cs).cfgPeriod = s.cfgPeriod := rfl
@[simp] theorem State.emit_cfgBreathing (cs : List BackendCmd) : (s.emit cs).cfgBreathing = s.cfgBreathing := rfl
@[simp] theorem State.emit_commands (cs : List BackendCmd) : (s.emit cs).commands = s.commands := rfl
@[simp] theorem State.emit_agenda (cs : List BackendCmd) : (s.emit cs).agenda = s.agenda := rfl
@[simp] theorem State.emit_moves (cs : List BackendCmd) : (s.emit cs).moves = s.moves := rfl
@[simp] theorem State.emit_out (cs : List BackendCmd) : (s.emit cs).out = s.out ++ cs := rfl
@[simp] theorem State.emit_responses (cs : List BackendCmd) : (s.emit cs).responses = s.responses := rfl

/-! ## finish -/

@[simp] theorem State.finish_phase (r : Word) : (s.finish r).phase = s.phase := rfl
@[simp] theorem State.finish_halt (r : Word) : (s.finish r).halt = s.halt := rfl
@[simp] theorem State.finish_active (r : Word) : (s.finish r).active = s.active := rfl
@[simp] theorem State.finish_notify (r : Word) : (s.finish r).notify = s.notify := rfl
@[simp] theorem State.finish_init (r : Word) : (s.finish r).init = s.init := rfl
@[simp] theorem State.finish_fault (r : Word) : (s.finish r).fault = s.fault := rfl
@[simp] theorem State.finish_faultInfo (r : Word) : (s.finish r).faultInfo = s.faultInfo := rfl
@[simp] theorem State.finish_seq (r : Word) : (s.finish r).seq = .idle := rfl
@[simp] theorem State.finish_rom (r : Word) : (s.finish r).rom = s.rom := rfl
@[simp] theorem State.finish_bl (r : Word) : (s.finish r).bl = s.bl := rfl
@[simp] theorem State.finish_scaleVariant (r : Word) : (s.finish r).scaleVariant = s.scaleVariant := rfl
@[simp] theorem State.finish_cfgLevel (r : Word) : (s.finish r).cfgLevel = s.cfgLevel := rfl
@[simp] theorem State.finish_cfgPeriod (r : Word) : (s.finish r).cfgPeriod = s.cfgPeriod := rfl
@[simp] theorem State.finish_cfgBreathing (r : Word) : (s.finish r).cfgBreathing = s.cfgBreathing := rfl
@[simp] theorem State.finish_commands (r : Word) : (s.finish r).commands = s.commands := rfl
@[simp] theorem State.finish_agenda (r : Word) : (s.finish r).agenda = s.agenda := rfl
@[simp] theorem State.finish_moves (r : Word) : (s.finish r).moves = s.moves := rfl
@[simp] theorem State.finish_out (r : Word) : (s.finish r).out = s.out := rfl
@[simp] theorem State.finish_responses (r : Word) : (s.finish r).responses = s.responses ++ [r] := rfl

/-! ## raise -/

@[simp] theorem State.raise_phase (c : FaultCode) (v : Word) : (s.raise c v).phase = s.phase := rfl
@[simp] theorem State.raise_halt (c : FaultCode) (v : Word) : (s.raise c v).halt = s.halt := rfl
@[simp] theorem State.raise_active (c : FaultCode) (v : Word) : (s.raise c v).active = s.active := rfl
@[simp] theorem State.raise_notify (c : FaultCode) (v : Word) : (s.raise c v).notify = s.notify := rfl
@[simp] theorem State.raise_init (c : FaultCode) (v : Word) : (s.raise c v).init = s.init := rfl
@[simp] theorem State.raise_fault (c : FaultCode) (v : Word) : (s.raise c v).fault = if s.fault = .none then c else s.fault := rfl
@[simp] theorem State.raise_faultInfo (c : FaultCode) (v : Word) : (s.raise c v).faultInfo = if s.fault = .none then v else s.faultInfo := rfl
@[simp] theorem State.raise_seq (c : FaultCode) (v : Word) : (s.raise c v).seq = .idle := rfl
@[simp] theorem State.raise_rom (c : FaultCode) (v : Word) : (s.raise c v).rom = s.rom := rfl
@[simp] theorem State.raise_bl (c : FaultCode) (v : Word) : (s.raise c v).bl = s.bl := rfl
@[simp] theorem State.raise_scaleVariant (c : FaultCode) (v : Word) : (s.raise c v).scaleVariant = s.scaleVariant := rfl
@[simp] theorem State.raise_cfgLevel (c : FaultCode) (v : Word) : (s.raise c v).cfgLevel = s.cfgLevel := rfl
@[simp] theorem State.raise_cfgPeriod (c : FaultCode) (v : Word) : (s.raise c v).cfgPeriod = s.cfgPeriod := rfl
@[simp] theorem State.raise_cfgBreathing (c : FaultCode) (v : Word) : (s.raise c v).cfgBreathing = s.cfgBreathing := rfl
@[simp] theorem State.raise_commands (c : FaultCode) (v : Word) : (s.raise c v).commands = s.commands := rfl
@[simp] theorem State.raise_agenda (c : FaultCode) (v : Word) : (s.raise c v).agenda = s.agenda := rfl
@[simp] theorem State.raise_moves (c : FaultCode) (v : Word) : (s.raise c v).moves = s.moves := rfl
@[simp] theorem State.raise_out (c : FaultCode) (v : Word) : (s.raise c v).out = s.out := rfl
@[simp] theorem State.raise_responses (c : FaultCode) (v : Word) : (s.raise c v).responses = s.responses := rfl

/-! ## powerOn -/

@[simp] theorem State.powerOn_phase : s.powerOn.phase = 0 := rfl
@[simp] theorem State.powerOn_halt : s.powerOn.halt = .none := rfl
@[simp] theorem State.powerOn_active : s.powerOn.active = false := rfl
@[simp] theorem State.powerOn_notify : s.powerOn.notify = false := rfl
@[simp] theorem State.powerOn_init : s.powerOn.init = false := rfl
@[simp] theorem State.powerOn_fault : s.powerOn.fault = .none := rfl
@[simp] theorem State.powerOn_faultInfo : s.powerOn.faultInfo = 0 := rfl
@[simp] theorem State.powerOn_seq : s.powerOn.seq = .idle := rfl
@[simp] theorem State.powerOn_rom : s.powerOn.rom = s.rom := rfl
@[simp] theorem State.powerOn_bl : s.powerOn.bl = s.bl := rfl
@[simp] theorem State.powerOn_scaleVariant : s.powerOn.scaleVariant = s.scaleVariant := rfl
@[simp] theorem State.powerOn_cfgLevel : s.powerOn.cfgLevel = s.cfgLevel := rfl
@[simp] theorem State.powerOn_cfgPeriod : s.powerOn.cfgPeriod = s.cfgPeriod := rfl
@[simp] theorem State.powerOn_cfgBreathing : s.powerOn.cfgBreathing = s.cfgBreathing := rfl
@[simp] theorem State.powerOn_commands : s.powerOn.commands = s.commands := rfl
@[simp] theorem State.powerOn_agenda : s.powerOn.agenda = s.agenda := rfl
@[simp] theorem State.powerOn_moves : s.powerOn.moves = s.moves := rfl
@[simp] theorem State.powerOn_out : s.powerOn.out = [] := rfl
@[simp] theorem State.powerOn_responses : s.powerOn.responses = [] := rfl

/-! ## arm -/

@[simp] theorem State.arm_phase : s.arm.phase = s.phase := rfl
@[simp] theorem State.arm_halt : s.arm.halt = s.halt := rfl
@[simp] theorem State.arm_active : s.arm.active = true := rfl
@[simp] theorem State.arm_notify : s.arm.notify = true := rfl
@[simp] theorem State.arm_init : s.arm.init = s.init := rfl
@[simp] theorem State.arm_fault : s.arm.fault = s.fault := rfl
@[simp] theorem State.arm_faultInfo : s.arm.faultInfo = s.faultInfo := rfl
@[simp] theorem State.arm_seq : s.arm.seq = s.seq := rfl
@[simp] theorem State.arm_rom : s.arm.rom = s.rom := rfl
@[simp] theorem State.arm_bl : s.arm.bl = s.bl := rfl
@[simp] theorem State.arm_scaleVariant : s.arm.scaleVariant = s.scaleVariant := rfl
@[simp] theorem State.arm_cfgLevel : s.arm.cfgLevel = s.cfgLevel := rfl
@[simp] theorem State.arm_cfgPeriod : s.arm.cfgPeriod = s.cfgPeriod := rfl
@[simp] theorem State.arm_cfgBreathing : s.arm.cfgBreathing = s.cfgBreathing := rfl
@[simp] theorem State.arm_commands : s.arm.commands = s.commands := rfl
@[simp] theorem State.arm_agenda : s.arm.agenda = s.agenda := rfl
@[simp] theorem State.arm_moves : s.arm.moves = s.moves := rfl
@[simp] theorem State.arm_out : s.arm.out = s.out ++ [.stop, .start .tick, .enableNotify] := rfl
@[simp] theorem State.arm_responses : s.arm.responses = s.responses := rfl

/-! ## deactivate -/

@[simp] theorem State.deactivate_phase : s.deactivate.phase = s.phase := rfl
@[simp] theorem State.deactivate_halt : s.deactivate.halt = s.halt := rfl
@[simp] theorem State.deactivate_active : s.deactivate.active = false := rfl
@[simp] theorem State.deactivate_notify : s.deactivate.notify = false := rfl
@[simp] theorem State.deactivate_init : s.deactivate.init = s.init := rfl
@[simp] theorem State.deactivate_fault : s.deactivate.fault = s.fault := rfl
@[simp] theorem State.deactivate_faultInfo : s.deactivate.faultInfo = s.faultInfo := rfl
@[simp] theorem State.deactivate_seq : s.deactivate.seq = s.seq := rfl
@[simp] theorem State.deactivate_rom : s.deactivate.rom = s.rom := rfl
@[simp] theorem State.deactivate_bl : s.deactivate.bl = s.bl := rfl
@[simp] theorem State.deactivate_scaleVariant : s.deactivate.scaleVariant = s.scaleVariant := rfl
@[simp] theorem State.deactivate_cfgLevel : s.deactivate.cfgLevel = s.cfgLevel := rfl
@[simp] theorem State.deactivate_cfgPeriod : s.deactivate.cfgPeriod = s.cfgPeriod := rfl
@[simp] theorem State.deactivate_cfgBreathing : s.deactivate.cfgBreathing = s.cfgBreathing := rfl
@[simp] theorem State.deactivate_commands : s.deactivate.commands = s.commands := rfl
@[simp] theorem State.deactivate_agenda : s.deactivate.agenda = s.agenda := rfl
@[simp] theorem State.deactivate_moves : s.deactivate.moves = s.moves := rfl
@[simp] theorem State.deactivate_out : s.deactivate.out = s.out ++ [.stop, .start .null] := rfl
@[simp] theorem State.deactivate_responses : s.deactivate.responses = s.responses := rfl

/-! ## startUp -/

@[simp] theorem State.startUp_phase : s.startUp.phase = s.phase := rfl
@[simp] theorem State.startUp_halt : s.startUp.halt = s.halt := rfl
@[simp] theorem State.startUp_active : s.startUp.active = false := rfl
@[simp] theorem State.startUp_notify : s.startUp.notify = false := rfl
@[simp] theorem State.startUp_init : s.startUp.init = true := rfl
@[simp] theorem State.startUp_fault : s.startUp.fault = s.fault := rfl
@[simp] theorem State.startUp_faultInfo : s.startUp.faultInfo = s.faultInfo := rfl
@[simp] theorem State.startUp_seq : s.startUp.seq = s.seq := rfl
@[simp] theorem State.startUp_rom : s.startUp.rom = s.rom := rfl
@[simp] theorem State.startUp_bl : s.startUp.bl = s.bl := rfl
@[simp] theorem State.startUp_scaleVariant : s.startUp.scaleVariant = s.scaleVariant := rfl
@[simp] theorem State.startUp_cfgLevel : s.startUp.cfgLevel = s.cfgLevel := rfl
@[simp] theorem State.startUp_cfgPeriod : s.startUp.cfgPeriod = s.cfgPeriod := rfl
@[simp] theorem State.startUp_cfgBreathing : s.startUp.cfgBreathing = s.cfgBreathing := rfl
@[simp] theorem State.startUp_commands : s.startUp.commands = s.commands := rfl
@[simp] theorem State.startUp_agenda : s.startUp.agenda = s.agenda := rfl
@[simp] theorem State.startUp_moves : s.startUp.moves = s.moves := rfl
@[simp] theorem State.startUp_out : s.startUp.out = s.out ++ [.start .null] := rfl
@[simp] theorem State.startUp_responses : s.startUp.responses = s.responses := rfl

/-! ## takeCommand -/

@[simp] theorem State.takeCommand_phase : s.takeCommand.phase = s.phase := rfl
@[simp] theorem State.takeCommand_halt : s.takeCommand.halt = s.halt := rfl
@[simp] theorem State.takeCommand_active : s.takeCommand.active = s.active := rfl
@[simp] theorem State.takeCommand_notify : s.takeCommand.notify = s.notify := rfl
@[simp] theorem State.takeCommand_init : s.takeCommand.init = s.init := rfl
@[simp] theorem State.takeCommand_fault : s.takeCommand.fault = s.fault := rfl
@[simp] theorem State.takeCommand_faultInfo : s.takeCommand.faultInfo = s.faultInfo := rfl
@[simp] theorem State.takeCommand_seq : s.takeCommand.seq = s.seq := rfl
@[simp] theorem State.takeCommand_rom : s.takeCommand.rom = s.rom := rfl
@[simp] theorem State.takeCommand_bl : s.takeCommand.bl = s.bl := rfl
@[simp] theorem State.takeCommand_scaleVariant : s.takeCommand.scaleVariant = s.scaleVariant := rfl
@[simp] theorem State.takeCommand_cfgLevel : s.takeCommand.cfgLevel = s.cfgLevel := rfl
@[simp] theorem State.takeCommand_cfgPeriod : s.takeCommand.cfgPeriod = s.cfgPeriod := rfl
@[simp] theorem State.takeCommand_cfgBreathing : s.takeCommand.cfgBreathing = s.cfgBreathing := rfl
@[simp] theorem State.takeCommand_commands : s.takeCommand.commands = s.commands.tail := rfl
@[simp] theorem State.takeCommand_agenda : s.takeCommand.agenda = s.agenda := rfl
@[simp] theorem State.takeCommand_moves : s.takeCommand.moves = s.moves := rfl
@[simp] theorem State.takeCommand_out : s.takeCommand.out = s.out := rfl
@[simp] theorem State.takeCommand_responses : s.takeCommand.responses = s.responses := rfl

/-! ## drive -/

@[simp] theorem State.drive_phase (w : Word) : (s.drive w).phase = s.phase := rfl
@[simp] theorem State.drive_halt (w : Word) : (s.drive w).halt = s.halt := rfl
@[simp] theorem State.drive_active (w : Word) : (s.drive w).active = s.active := rfl
@[simp] theorem State.drive_notify (w : Word) : (s.drive w).notify = s.notify := rfl
@[simp] theorem State.drive_init (w : Word) : (s.drive w).init = s.init := rfl
@[simp] theorem State.drive_fault (w : Word) : (s.drive w).fault = s.fault := rfl
@[simp] theorem State.drive_faultInfo (w : Word) : (s.drive w).faultInfo = s.faultInfo := rfl
@[simp] theorem State.drive_seq (w : Word) : (s.drive w).seq = s.seq := rfl
@[simp] theorem State.drive_rom (w : Word) : (s.drive w).rom = s.rom := rfl
@[simp] theorem State.drive_bl (w : Word) : (s.drive w).bl = s.bl := rfl
@[simp] theorem State.drive_scaleVariant (w : Word) : (s.drive w).scaleVariant = s.scaleVariant := rfl
@[simp] theorem State.drive_cfgLevel (w : Word) : (s.drive w).cfgLevel = s.cfgLevel := rfl
@[simp] theorem State.drive_cfgPeriod (w : Word) : (s.drive w).cfgPeriod = s.cfgPeriod := rfl
@[simp] theorem State.drive_cfgBreathing (w : Word) : (s.drive w).cfgBreathing = s.cfgBreathing := rfl
@[simp] theorem State.drive_commands (w : Word) : (s.drive w).commands = s.commands ++ [w] := rfl
@[simp] theorem State.drive_agenda (w : Word) : (s.drive w).agenda = s.agenda := rfl
@[simp] theorem State.drive_moves (w : Word) : (s.drive w).moves = s.moves := rfl
@[simp] theorem State.drive_out (w : Word) : (s.drive w).out = s.out := rfl
@[simp] theorem State.drive_responses (w : Word) : (s.drive w).responses = s.responses := rfl

/-! ## storeInputs -/

@[simp] theorem State.storeInputs_phase (l p : Nat) (b : Bool) : (s.storeInputs l p b).phase = s.phase := rfl
@[simp] theorem State.storeInputs_halt (l p : Nat) (b : Bool) : (s.storeInputs l p b).halt = s.halt := rfl
@[simp] theorem State.storeInputs_active (l p : Nat) (b : Bool) : (s.storeInputs l p b).active = s.active := rfl
@[simp] theorem State.storeInputs_notify (l p : Nat) (b : Bool) : (s.storeInputs l p b).notify = s.notify := rfl
@[simp] theorem State.storeInputs_init (l p : Nat) (b : Bool) : (s.storeInputs l p b).init = s.init := rfl
@[simp] theorem State.storeInputs_fault (l p : Nat) (b : Bool) : (s.storeInputs l p b).fault = s.fault := rfl
@[simp] theorem State.storeInputs_faultInfo (l p : Nat) (b : Bool) : (s.storeInputs l p b).faultInfo = s.faultInfo := rfl
@[simp] theorem State.storeInputs_seq (l p : Nat) (b : Bool) : (s.storeInputs l p b).seq = s.seq := rfl
@[simp] theorem State.storeInputs_rom (l p : Nat) (b : Bool) : (s.storeInputs l p b).rom = s.rom := rfl
@[simp] theorem State.storeInputs_bl (l p : Nat) (b : Bool) : (s.storeInputs l p b).bl = s.bl := rfl
@[simp] theorem State.storeInputs_scaleVariant (l p : Nat) (b : Bool) : (s.storeInputs l p b).scaleVariant = s.scaleVariant := rfl
@[simp] theorem State.storeInputs_cfgLevel (l p : Nat) (b : Bool) : (s.storeInputs l p b).cfgLevel = l := rfl
@[simp] theorem State.storeInputs_cfgPeriod (l p : Nat) (b : Bool) : (s.storeInputs l p b).cfgPeriod = p := rfl
@[simp] theorem State.storeInputs_cfgBreathing (l p : Nat) (b : Bool) : (s.storeInputs l p b).cfgBreathing = b := rfl
@[simp] theorem State.storeInputs_commands (l p : Nat) (b : Bool) : (s.storeInputs l p b).commands = s.commands := rfl
@[simp] theorem State.storeInputs_agenda (l p : Nat) (b : Bool) : (s.storeInputs l p b).agenda = s.agenda := rfl
@[simp] theorem State.storeInputs_moves (l p : Nat) (b : Bool) : (s.storeInputs l p b).moves = s.moves := rfl
@[simp] theorem State.storeInputs_out (l p : Nat) (b : Bool) : (s.storeInputs l p b).out = s.out := rfl
@[simp] theorem State.storeInputs_responses (l p : Nat) (b : Bool) : (s.storeInputs l p b).responses = s.responses := rfl

/-! ## takeMove -/

@[simp] theorem State.takeMove_phase : s.takeMove.phase = s.phase := by unfold State.takeMove; split <;> rfl
@[simp] theorem State.takeMove_halt : s.takeMove.halt = s.halt := by unfold State.takeMove; split <;> rfl
@[simp] theorem State.takeMove_active : s.takeMove.active = s.active := by unfold State.takeMove; split <;> rfl
@[simp] theorem State.takeMove_notify : s.takeMove.notify = s.notify := by unfold State.takeMove; split <;> rfl
@[simp] theorem State.takeMove_init : s.takeMove.init = s.init := by unfold State.takeMove; split <;> rfl
@[simp] theorem State.takeMove_fault : s.takeMove.fault = s.fault := by unfold State.takeMove; split <;> rfl
@[simp] theorem State.takeMove_faultInfo : s.takeMove.faultInfo = s.faultInfo := by unfold State.takeMove; split <;> rfl
@[simp] theorem State.takeMove_seq : s.takeMove.seq = s.seq := by unfold State.takeMove; split <;> rfl
@[simp] theorem State.takeMove_rom : s.takeMove.rom = s.rom := by unfold State.takeMove; split <;> rfl
@[simp] theorem State.takeMove_bl : s.takeMove.bl = s.bl := by unfold State.takeMove; split <;> rfl
@[simp] theorem State.takeMove_scaleVariant : s.takeMove.scaleVariant = s.scaleVariant := by unfold State.takeMove; split <;> rfl
@[simp] theorem State.takeMove_cfgLevel : s.takeMove.cfgLevel = s.cfgLevel := by unfold State.takeMove; split <;> rfl
@[simp] theorem State.takeMove_cfgPeriod : s.takeMove.cfgPeriod = s.cfgPeriod := by unfold State.takeMove; split <;> rfl
@[simp] theorem State.takeMove_cfgBreathing : s.takeMove.cfgBreathing = s.cfgBreathing := by unfold State.takeMove; split <;> rfl
@[simp] theorem State.takeMove_commands : s.takeMove.commands = s.commands := by unfold State.takeMove; split <;> rfl
@[simp] theorem State.takeMove_out : s.takeMove.out = s.out := by unfold State.takeMove; split <;> rfl
@[simp] theorem State.takeMove_responses : s.takeMove.responses = s.responses := by unfold State.takeMove; split <;> rfl

/-- The environment's fixed moves come first, in order. -/
theorem State.move_of_agenda {m : Move} {ms : List Move} (h : s.agenda = m :: ms) :
    s.nextMove = m ∧ s.takeMove = { s with agenda := ms } := by
  simp [State.nextMove, State.takeMove, h]

end Sys2Proof.Machine
end

