-- ==== Sys2Proof/Laws/Ops.lean ====
section
/-! SUPPORT. One lemma per shared operation that says all it can do; later proofs cite these. -/

namespace Sys2Proof.Machine

variable {s t : State}

/-! ## running, accept, the store's reads -/

theorem running_of (h : s.fault = .none) (k : State → Result) : running s k = k s := if_pos h

theorem running_faulted (h : s.fault ≠ .none) (k : State → Result) : running s k = .fault .stopped := if_neg h

theorem running_next {k : State → Result} (h : running s k = .next t) : s.fault = .none ∧ k s = .next t := by
  unfold running at h
  split at h
  · exact ⟨‹_›, h⟩
  · cases h

/-- Acceptance runs the first micro-step or raises the decode fault. -/
theorem accept_next {i : Instr} {first : State → State} (h : accept i s first = .next t) :
    (admission i s = .none ∧ t = first s) ∨ (admission i s ≠ .none ∧ t = s.raise (admission i s) (encode i)) := by
  unfold accept at h
  split at h
  · exact .inl ⟨‹_›, by cases h; rfl⟩
  · exact .inr ⟨‹_›, by cases h; rfl⟩

theorem accept_of {i : Instr} (first : State → State) (h : admission i s = .none) :
    accept i s first = .next (first s) := if_pos h

theorem accept_of_fault {i : Instr} (first : State → State) (h : admission i s ≠ .none) :
    accept i s first = .next (s.raise (admission i s) (encode i)) := if_neg h

theorem withLevel_next {k : Half → Result} (h : withLevel s k = .next t) :
    (s.bl.toNat < s.cfgLevel ∧ t = s.raise .levelRange (infoOf s.cfgLevel)) ∨
    (s.cfgLevel ≤ s.bl.toNat ∧ k (BitVec.ofNat 16 s.cfgLevel) = .next t) := by
  unfold withLevel at h
  split at h
  · exact .inl ⟨‹_›, by cases h; rfl⟩
  · exact .inr ⟨by omega, h⟩

theorem withLevel_of (k : Half → Result) (h : s.cfgLevel ≤ s.bl.toNat) :
    withLevel s k = k (BitVec.ofNat 16 s.cfgLevel) := if_neg (by omega)

theorem withPeriod_next {k : Nat → Result} (h : withPeriod s k = .next t) :
    ((s.cfgPeriod < 1 ∨ 256 < s.cfgPeriod) ∧ t = s.raise .periodRange (infoOf s.cfgPeriod)) ∨
    (1 ≤ s.cfgPeriod ∧ s.cfgPeriod ≤ 256 ∧ k s.cfgPeriod = .next t) := by
  unfold withPeriod at h
  split at h
  · exact .inl ⟨‹_›, by cases h; rfl⟩
  · exact .inr ⟨by omega, by omega, h⟩

theorem withPeriod_of (k : Nat → Result) (h1 : 1 ≤ s.cfgPeriod) (h2 : s.cfgPeriod ≤ 256) :
    withPeriod s k = k s.cfgPeriod := if_neg (by omega)

/-- An admitted level is a u16, so nothing is lost when it is carried as one (R37). -/
theorem level_toNat (h : s.cfgLevel ≤ s.bl.toNat) : (BitVec.ofNat 16 s.cfgLevel).toNat = s.cfgLevel := by
  have := s.bl.isLt
  rw [BitVec.toNat_ofNat]
  omega

theorem level_le (h : s.cfgLevel ≤ s.bl.toNat) : BitVec.ofNat 16 s.cfgLevel ≤ s.bl := by
  rw [BitVec.le_def, level_toNat h]
  exact h

theorem level_eq_zero (h : s.cfgLevel ≤ s.bl.toNat) : BitVec.ofNat 16 s.cfgLevel = 0 ↔ s.cfgLevel = 0 := by
  constructor
  · intro h0
    have := level_toNat h
    rw [h0] at this
    simpa using this.symm
  · intro h0
    rw [h0]
    rfl

/-- The four ways the machine's decode checks answer for a command (R77). -/
theorem admission_command {i : Instr} (h : i.port = .command) (hi : i ≠ .initPorts) (hm : ∀ v, i ≠ .map v) :
    admission i s = if s.init then (if ∃ L, i = .set L ∧ s.bl < L then .levelRange else .none) else .notInit := by
  cases i <;> simp_all [admission, Instr.port]

/-! ## The bodies -/

/-- A micro-step of `SET_BODY` emits only, then goes on or is done (R126). -/
theorem setBody_cases (p : BodyPoint) (resume : BodyPoint → Seq) (done : State → State) :
    (∃ c, p = .disable c ∧ c ≠ 4 ∧ setBody p resume done s = (s.emit [.disableCh c]).goto (resume (.disable (c + 1)))) ∨
    (p = .disable 4 ∧ setBody p resume done s = done (s.emit [.disableCh 4])) ∨
    (∃ L, p = .enable L ∧ setBody p resume done s = done (s.emit (staticFrame s L))) := by
  cases p with
  | disable c =>
    by_cases h : c = 4
    · exact .inr (.inl ⟨by rw [h], by simp [setBody, h]⟩)
    · exact .inl ⟨c, rfl, h, by simp [setBody, h]⟩
  | enable L => exact .inr (.inr ⟨L, rfl, rfl⟩)

theorem haltAt_cases (idx : Index) :
    (haltHits s.halt idx = true ∧ haltAt s idx = s.deactivate) ∨ (haltHits s.halt idx = false ∧ haltAt s idx = s) := by
  unfold haltAt
  cases h : haltHits s.halt idx <;> simp

/-- All a frame does (R172, R175, R179): the new phase, the deactivation if the halt check holds, the five channels. -/
theorem tickFrame_cases (period : Nat) (level : Half) :
    let idx := waveIndex (nextPhase s.phase period) period
    (haltHits s.halt idx = true ∧ tickFrame s period level = { s with
      phase := nextPhase s.phase period, active := false, notify := false
      out := s.out ++ ([.stop, .start .null] ++ enableAll (frameDuty s idx level)) }) ∨
    (haltHits s.halt idx = false ∧ tickFrame s period level = { s with
      phase := nextPhase s.phase period, out := s.out ++ enableAll (frameDuty s idx level) }) := by
  intro idx
  obtain ⟨hh, he⟩ | ⟨hh, he⟩ := haltAt_cases (s := s.setPhase (nextPhase s.phase period)) idx
  · refine .inl ⟨hh, ?_⟩
    show ((haltAt (s.setPhase (nextPhase s.phase period)) idx).emit _) = _
    rw [he]
    simp [State.deactivate, State.emit, State.setPhase, idx]
  · refine .inr ⟨hh, ?_⟩
    show ((haltAt (s.setPhase (nextPhase s.phase period)) idx).emit _) = _
    rw [he]
    rfl

/-- All a tick can do (R170): it is not delivered, it faults before any effect, or it writes its phase, its halt and its
frame. -/
theorem execTick_next (h : execTick s = .next t) :
    s.fault = .none ∧
    ((s.tickDeliverable = false ∧ t = s) ∨
     (s.tickDeliverable = true ∧ (s.cfgPeriod < 1 ∨ 256 < s.cfgPeriod) ∧
       t = s.raise .periodRange (infoOf s.cfgPeriod)) ∨
     (s.tickDeliverable = true ∧ 1 ≤ s.cfgPeriod ∧ s.cfgPeriod ≤ 256 ∧ s.bl.toNat < s.cfgLevel ∧
       t = s.raise .levelRange (infoOf s.cfgLevel)) ∨
     (s.tickDeliverable = true ∧ 1 ≤ s.cfgPeriod ∧ s.cfgPeriod ≤ 256 ∧ s.cfgLevel ≤ s.bl.toNat ∧
       t = tickFrame s s.cfgPeriod (BitVec.ofNat 16 s.cfgLevel))) := by
  obtain ⟨hf, h⟩ := running_next h
  refine ⟨hf, ?_⟩
  cases hd : s.tickDeliverable with
  | false => simp [hd] at h; exact .inl ⟨rfl, h.symm⟩
  | true =>
    simp only [hd, if_true] at h
    obtain ⟨hp, rfl⟩ | ⟨hp1, hp2, h⟩ := withPeriod_next h
    · exact .inr (.inl ⟨rfl, hp, rfl⟩)
    · obtain ⟨hl, rfl⟩ | ⟨hl, h⟩ := withLevel_next h
      · exact .inr (.inr (.inl ⟨rfl, hp1, hp2, hl, rfl⟩))
      · cases h
        exact .inr (.inr (.inr ⟨rfl, hp1, hp2, hl, rfl⟩))

theorem execTick_of (hf : s.fault = .none) (ha : s.active = true) (hn : s.notify = true) (hs : s.storeInRange) :
    execTick s = .next (tickFrame s s.cfgPeriod (BitVec.ofNat 16 s.cfgLevel)) := by
  obtain ⟨hl, h1, h2⟩ := hs
  simp [execTick, running_of hf, State.tickDeliverable, ha, hn, hf, tickBody, withPeriod_of _ h1 h2, withLevel_of _ hl]

/-! ## Numbers -/

theorem interval_eq (P : Nat) : interval P = 2 * P := by
  unfold interval
  omega

theorem nextPhase_toNat (phase : Half) {P : Nat} (h1 : 1 ≤ P) (h2 : P ≤ 256) :
    (nextPhase phase P).toNat = (phase.toNat + 1) % (P * 256) := by
  have := Nat.mod_lt (phase.toNat + 1) (show P * 256 > 0 by omega)
  rw [nextPhase, BitVec.toNat_ofNat, Nat.mod_eq_of_lt (a := (phase.toNat + 1) % (P * 256)) (by omega)]

theorem nextPhase_lt (phase : Half) {P : Nat} (h1 : 1 ≤ P) (h2 : P ≤ 256) : (nextPhase phase P).toNat < 256 * P := by
  rw [nextPhase_toNat phase h1 h2]
  have := Nat.mod_lt (phase.toNat + 1) (show P * 256 > 0 by omega)
  omega

theorem div_interval_lt {phase P : Nat} (h1 : 1 ≤ P) (h : phase < 256 * P) : phase / (2 * P) < 128 := by
  rw [Nat.div_lt_iff_lt_mul (by omega)]
  omega

theorem waveIndex_toNat {phase : Half} {P : Nat} (h1 : 1 ≤ P) (h : phase.toNat < 256 * P) :
    (waveIndex phase P).toNat = phase.toNat / (2 * P) := by
  have := div_interval_lt h1 h
  rw [waveIndex, interval_eq, BitVec.toNat_ofNat, Nat.mod_eq_of_lt this, Nat.mod_eq_of_lt (by omega)]

theorem mapY_eq (v : Nat) : mapY v = (v + 10486) * 256 / 76021 := by
  rw [mapY, Nat.shiftLeft_eq]

theorem mapCube_eq (y : Nat) : mapCube y = y * y * y / 256 := by
  rw [mapCube, Nat.shiftRight_eq_div_pow]

theorem mapNat_le {v : Nat} (h : v ≤ 65535) : mapNat v ≤ 65535 := by
  unfold mapNat
  split <;> omega

theorem mapDuty_toNat (v : Half) : (mapDuty v).toNat = mapNat v.toNat := by
  have := mapNat_le (v := v.toNat) (by have := v.isLt; omega)
  rw [mapDuty, BitVec.toNat_ofNat]
  omega

theorem scale_doc_le (bl : Half) (x : Byte) {L : Half} (h : L ≤ bl) : scale .doc bl x L ≤ x.toNat :=
  le_trans (Nat.mul_le_mul_left _ (BitVec.le_def.mp h)) (Nat.div_mul_le_self _ _)

theorem scale_x256_le (bl : Half) (x : Byte) {L : Half} (h : L ≤ bl) : scale .upstreamX256 bl x L ≤ x.toNat * 256 :=
  Nat.div_le_of_le_mul (by
    rw [Nat.mul_comm bl.toNat]
    exact Nat.mul_le_mul_left _ (BitVec.le_def.mp h))

theorem scale_lt (v : ScaleVariant) (bl : Half) (x : Byte) {L : Half} (h : L ≤ bl) : scale v bl x L ≤ 65280 := by
  have hx := x.isLt
  cases v with
  | doc => have := scale_doc_le bl x h; omega
  | upstreamX256 => have := scale_x256_le bl x h; omega

theorem frameDuty_toNat (idx : Index) {L : Half} (h : L ≤ s.bl) :
    (frameDuty s idx L).toNat = mapNat (scale s.scaleVariant s.bl (Memory.read s.rom idx) L) := by
  have := scale_lt s.scaleVariant s.bl (Memory.read s.rom idx) h
  rw [frameDuty, mapDuty_toNat, BitVec.toNat_ofNat, Nat.mod_eq_of_lt (by omega)]

/-- At level 0 every frame is dark (R144, 90_conflicts.md C5). -/
theorem frameDuty_zero (idx : Index) : frameDuty s idx 0 = 0 := by
  cases h : s.scaleVariant <;> simp [frameDuty, scale, h] <;> decide

/-! ## The ROM -/

/-- The reset ROM is canonical, whatever WAVE is. -/
theorem reset_rom_wf : Memory.wf State.reset.rom = true := rfl

/-- An index no cell lists reads as the parameter WAVE's entry. -/
theorem read_unlisted {m : Memory} {i : Index} (h : m.lookup i.toNat = none) : Memory.read m i = Config.wave i := by
  simp [Memory.read, h]

/-- A listed index reads as its cell. -/
theorem read_listed {m : Memory} {i : Index} {b : Byte} (h : m.lookup i.toNat = some b) : Memory.read m i = b := by
  simp [Memory.read, h]

/-! ## Runs -/

theorem run_zero : run 0 s = .next s := rfl

theorem run_succ (n : Nat) :
    run (n + 1) s =
      match step s with
      | .next t => run n t
      | .fault r => .fault r
      | .refused r => .refused r := by
  cases h : step s <;> simp only [run, Host.Core.run, show Sys2Proof.core.step s = _ from h] <;> rfl

theorem run_step {n : Nat} (h : step s = .next t) : run (n + 1) s = run n t := by
  rw [run_succ, h]

end Sys2Proof.Machine
end

