-- ==== Sys2Proof/Laws/Step.lean ====
section
/-! SUPPORT. What one step does for each kind of next move, and what it can do at all. -/

namespace Sys2Proof.Machine

variable {s t : State} {ms : List Move}

/-- The foreground's move in the middle of a command (R21). -/
theorem step_in_progress {i : Instr} (ha : s.agenda = .foreground :: ms) (hf : s.fault = .none)
    (hi : s.seq.instr = some i) : step s = exec i { s with agenda := ms } := by
  obtain ⟨hm, ht⟩ := State.move_of_agenda s ha
  simp [step, hm, ht, move, running, hf, foreground, hi]

/-- The command port's decoder reads every command's own word. -/
theorem decodeCommand_encode {i : Instr} (hp : i.port = .command) : decodeCommand (encode i) = .instr i := by
  have h : decode i.port (encode i) = .instr i := by
    cases i with
    | set l => exact (Laws.RoundTrip.set l).1
    | map l => exact (Laws.RoundTrip.map l).1
    | _ => decide
  rwa [hp] at h

/-- The foreground's move when it accepts a command. -/
theorem step_accepts {i : Instr} {ws : List Word} (ha : s.agenda = .foreground :: ms) (hf : s.fault = .none)
    (hs : s.seq = .idle) (hc : s.commands = encode i :: ws) (hp : i.port = .command) :
    step s = exec i { s with agenda := ms, commands := ws } := by
  obtain ⟨hm, ht⟩ := State.move_of_agenda s ha
  simp [step, hm, ht, move, running, hf, foreground, hs, Seq.instr, hc, acceptWord, decodeCommand_encode hp,
    State.takeCommand]

/-- A tick event's move. -/
theorem step_ticks (ha : s.agenda = .event tickWord :: ms) (hf : s.fault = .none) :
    step s = execTick { s with agenda := ms } := by
  obtain ⟨hm, ht⟩ := State.move_of_agenda s ha
  simp [step, hm, ht, move, running, hf, deliver, decodeEvent, exec]

/-- A delivered tick's step, its inputs within range: the whole frame. -/
theorem step_frame (ha : s.agenda = .event tickWord :: ms) (hf : s.fault = .none) (hac : s.active = true)
    (hn : s.notify = true) (hr : s.storeInRange) :
    step s = .next (tickFrame { s with agenda := ms } s.cfgPeriod (BitVec.ofNat 16 s.cfgLevel)) := by
  rw [step_ticks ha hf, execTick_of (s := { s with agenda := ms }) hf hac hn hr]

/-- A run in two parts. -/
theorem run_add {m : Nat} (n : Nat) (h : run m s = .next t) : run (m + n) s = run n t := by
  induction m generalizing s with
  | zero => cases h; simp
  | succ m ih =>
    rw [run_succ] at h
    rw [show m + 1 + n = m + n + 1 by omega, run_succ]
    cases hs : step s <;> rw [hs] at h <;> simp at h ⊢
    exact ih h

@[simp] theorem foregroundMoves_zero : foregroundMoves 0 ms = ms := rfl

@[simp] theorem foregroundMoves_succ (n : Nat) : foregroundMoves (n + 1) ms = .foreground :: foregroundMoves n ms := rfl

@[simp] theorem tickMoves_zero : tickMoves 0 ms = ms := rfl

@[simp] theorem tickMoves_succ (n : Nat) : tickMoves (n + 1) ms = .event tickWord :: tickMoves n ms := rfl

/-- The step of a tick that R205 does not let be delivered. -/
theorem step_undelivered (ha : s.agenda = .event tickWord :: ms) (hf : s.fault = .none) (hd : s.tickDeliverable = false) :
    step s = .next { s with agenda := ms } := by
  have h : ({ s with agenda := ms } : State).tickDeliverable = false := hd
  rw [step_ticks ha hf, execTick, running_of (s := { s with agenda := ms }) hf, h]
  rfl

/-- All that ticks in a row can do: they advance the phase once for each one delivered, write frames, and may deactivate
the block; without a halt mode every one is delivered, and an undeliverable one leaves nothing. -/
theorem run_ticks (n : Nat) (hf : s.fault = .none) (hr : s.tickDeliverable = true → n ≠ 0 → s.storeInRange)
    (ha : s.agenda = tickMoves n ms) :
    ∃ (ph : Half) (a b : Bool) (m : Nat) (cs : List BackendCmd),
      run n s = .next { s with phase := ph, active := a, notify := b, agenda := ms, out := s.out ++ cs } ∧ m ≤ n ∧
      (s.phase.toNat < 256 * s.cfgPeriod → ph.toNat = (s.phase.toNat + m) % (256 * s.cfgPeriod)) ∧
      (s.tickDeliverable = false ∨ n = 0 → m = 0 ∧ ph = s.phase ∧ a = s.active ∧ b = s.notify ∧ cs = []) ∧
      (s.tickDeliverable = true → s.halt = .none → m = n ∧ a = true ∧ b = true ∧ cs.length = 5 * n) := by
  induction n generalizing s with
  | zero =>
    refine ⟨s.phase, s.active, s.notify, 0, [], ?_, le_rfl, fun h => (Nat.mod_eq_of_lt h).symm, by simp, ?_⟩
    · rw [run_zero, List.append_nil, ← show s.agenda = ms from ha]
    · simp [State.tickDeliverable]
      tauto
  | succ n ih =>
    rw [tickMoves_succ] at ha
    cases hd : s.tickDeliverable with
    | false =>
      rw [run_step (step_undelivered ha hf hd)]
      obtain ⟨ph, a, b, m, cs, h, hm, hp, hu, -⟩ :=
        ih (s := { s with agenda := tickMoves n ms }) hf (fun h => by simp [State.tickDeliverable] at h hd; simp_all) rfl
      exact ⟨ph, a, b, m, cs, h, by omega, hp, fun _ => hu (.inl hd), by simp⟩
    | true =>
      obtain ⟨hac, hn⟩ : s.active = true ∧ s.notify = true := by simp [State.tickDeliverable] at hd; tauto
      have hs := hr hd (by omega)
      obtain ⟨hl, h1, h2⟩ := id hs
      rw [run_step (step_frame ha hf hac hn hs)]
      have hlt := nextPhase_lt s.phase h1 h2
      obtain ⟨c₀, a₀, b₀, hframe, hhalt⟩ : ∃ (c₀ : List BackendCmd) (a₀ b₀ : Bool),
          tickFrame { s with agenda := tickMoves n ms } s.cfgPeriod (BitVec.ofNat 16 s.cfgLevel) =
            { s with
              agenda := tickMoves n ms, phase := nextPhase s.phase s.cfgPeriod, active := a₀, notify := b₀
              out := s.out ++ c₀ } ∧
          (s.halt = .none → a₀ = true ∧ b₀ = true ∧ c₀.length = 5) := by
        obtain ⟨hh, he⟩ | ⟨-, he⟩ := tickFrame_cases (s := { s with agenda := tickMoves n ms }) s.cfgPeriod
          (BitVec.ofNat 16 s.cfgLevel)
        · exact ⟨_, _, _, he, fun h => by simp [h, haltHits] at hh⟩
        · exact ⟨_, _, _, he, fun _ => ⟨hac, hn, rfl⟩⟩
      rw [hframe]
      obtain ⟨ph, a, b, m, cs, h, hm, hp, hu, hnone⟩ :=
        ih (s := { s with
          agenda := tickMoves n ms, phase := nextPhase s.phase s.cfgPeriod, active := a₀, notify := b₀
          out := s.out ++ c₀ }) hf (fun _ _ => hs) rfl
      refine ⟨ph, a, b, m + 1, c₀ ++ cs, by rw [h, List.append_assoc], by omega, fun _ => ?_, by simp, ?_⟩
      · rw [hp hlt, nextPhase_toNat _ h1 h2, Nat.mul_comm 256, Nat.mod_add_mod]
        congr 1
        omega
      · intro _ hh
        obtain ⟨ha₀, hb₀, hc₀⟩ := hhalt hh
        obtain ⟨e, hat, hbt, hc⟩ := hnone (by simp [State.tickDeliverable, ha₀, hb₀, hf]) hh
        exact ⟨by omega, hat, hbt, by rw [List.length_append, hc₀, hc]; omega⟩

/-- What a step can do at all: the outside world moves, the foreground waits or turns a word away, an event is ignored, or
one instruction runs its next micro-step. -/
theorem step_next (h : step s = .next t) :
    (∃ w, s.nextMove = .drive w ∧ t = s.takeMove.drive w) ∨
    (∃ l p b, s.nextMove = .store l p b ∧ t = s.takeMove.storeInputs l p b) ∨
    (s.nextMove = .powerOn ∧ t = s.takeMove.powerOn) ∨
    (∃ w, s.nextMove = .event w ∧ s.fault = .none ∧ w ≠ tickWord ∧ t = s.takeMove) ∨
    (s.nextMove = .event tickWord ∧ s.fault = .none ∧ exec .tick s.takeMove = .next t) ∨
    (s.nextMove = .foreground ∧ s.fault = .none ∧ s.seq = .idle ∧ s.commands = [] ∧ t = s.takeMove) ∨
    (∃ w ws, s.nextMove = .foreground ∧ s.fault = .none ∧ s.seq = .idle ∧ s.commands = w :: ws ∧
      (∀ i, decodeCommand w ≠ .instr i) ∧ t = s.takeMove.takeCommand.raise .reserved w) ∨
    (∃ w ws i, s.nextMove = .foreground ∧ s.fault = .none ∧ s.seq = .idle ∧ s.commands = w :: ws ∧
      decodeCommand w = .instr i ∧ exec i s.takeMove.takeCommand = .next t) ∨
    (∃ i, s.nextMove = .foreground ∧ s.fault = .none ∧ s.seq.instr = some i ∧ exec i s.takeMove = .next t) := by
  unfold step at h
  cases hm : s.nextMove with
  | drive w => rw [hm] at h; cases h; exact .inl ⟨w, rfl, rfl⟩
  | store l p b => rw [hm] at h; cases h; exact .inr (.inl ⟨l, p, b, rfl, rfl⟩)
  | powerOn => rw [hm] at h; cases h; exact .inr (.inr (.inl ⟨rfl, rfl⟩))
  | event w =>
    rw [hm] at h
    obtain ⟨hf, h⟩ := running_next h
    rw [State.takeMove_fault] at hf
    by_cases hw : w = tickWord
    · subst hw
      simp only [deliver, decodeEvent, if_true] at h
      exact .inr (.inr (.inr (.inr (.inl ⟨rfl, hf, h⟩))))
    · simp only [deliver, decodeEvent, if_neg hw] at h
      cases h
      exact .inr (.inr (.inr (.inl ⟨w, rfl, hf, hw, rfl⟩)))
  | foreground =>
    rw [hm] at h
    obtain ⟨hf, h⟩ := running_next h
    rw [State.takeMove_fault] at hf
    unfold foreground at h
    rw [State.takeMove_seq] at h
    cases hi : s.seq.instr with
    | some i =>
      rw [hi] at h
      exact .inr (.inr (.inr (.inr (.inr (.inr (.inr (.inr ⟨i, rfl, hf, rfl, h⟩)))))))
    | none =>
      rw [hi] at h
      have hs : s.seq = .idle := by cases hs : s.seq <;> simp_all [Seq.instr]
      cases hc : s.commands with
      | nil =>
        simp only [State.takeMove_commands, hc] at h
        cases h
        exact .inr (.inr (.inr (.inr (.inr (.inl ⟨rfl, hf, hs, rfl, rfl⟩)))))
      | cons w ws =>
        simp only [State.takeMove_commands, hc, acceptWord] at h
        cases hd : decodeCommand w with
        | instr i =>
          rw [hd] at h
          exact .inr (.inr (.inr (.inr (.inr (.inr (.inr (.inl ⟨w, ws, i, rfl, hf, hs, rfl, hd, h⟩)))))))
        | rejected e =>
          rw [hd] at h
          cases h
          exact .inr (.inr (.inr (.inr (.inr (.inr (.inl ⟨w, ws, rfl, hf, hs, rfl, by simp [hd], rfl⟩))))))

end Sys2Proof.Machine
end

