-- ==== Sys2Proof/Laws/Effect.lean ====
section
/-! SUPPORT. Everything one instruction can do when it answers a next state, one constructor per micro-step: each
whole-machine claim is a case split over this. -/

namespace Sys2Proof.Machine

/-- The effects of an instruction on a state without a fault. -/
inductive Effect (s : State) : Instr → State → Prop where
  | raised (i : Instr) (c : FaultCode) (v : Word) (hc : c ≠ .none)
      (why : ¬ s.storeInRange ∨ (s.seq = .idle ∧ admission i s ≠ .none)) : Effect s i (s.raise c v)
  | undelivered (h : s.tickDeliverable = false) : Effect s .tick s
  | frame (h : s.tickDeliverable = true) (h1 : 1 ≤ s.cfgPeriod) (h2 : s.cfgPeriod ≤ 256) (hl : s.cfgLevel ≤ s.bl.toNat) :
      Effect s .tick (tickFrame s s.cfgPeriod (BitVec.ofNat 16 s.cfgLevel))
  | mapped (v : Half) (hs : s.seq = .idle) : Effect s (.map v) (s.finish (zext32 (mapDuty v)))
  | answered (hs : s.seq = .idle) (hi : s.init = true) : Effect s .isActive (s.finish (bitWord s.active))
  | setAccepted (L : Half) (hs : s.seq = .idle) (hi : s.init = true) (hL : L ≤ s.bl) :
      Effect s (.set L) (s.goto (.set (BodyPoint.first L)))
  | setBody (p : BodyPoint) (hs : s.seq = .set p) :
      Effect s (.set p.level) (setBody p .set (fun s => s.finish 0) s)
  | enableAccepted (hs : s.seq = .idle) (hi : s.init = true) : Effect s .enable (s.goto (.enable .phase))
  | enableBody (p : EnablePoint) (hs : s.seq = .enable p) : Effect s .enable (enableBody p .enable s)
  | pulseAccepted (hs : s.seq = .idle) (hi : s.init = true) : Effect s .pulseOnce (s.goto (.pulseOnce .readLevel))
  | pulseOff (hs : s.seq = .pulseOnce .readLevel) (hl : s.cfgLevel = 0) :
      Effect s .pulseOnce ((s.setPhase 0).goto (.pulseOnce .halt))
  | pulseOn (hs : s.seq = .pulseOnce .readLevel) (h0 : s.cfgLevel ≠ 0) (hl : s.cfgLevel ≤ s.bl.toNat)
      (h1 : 1 ≤ s.cfgPeriod) (h2 : s.cfgPeriod ≤ 256) :
      Effect s .pulseOnce ((s.setPhase (pulsePhase s.cfgPeriod)).goto (.pulseOnce .halt))
  | pulseHalt (hs : s.seq = .pulseOnce .halt) : Effect s .pulseOnce ((s.setHalt .atOn).goto (.pulseOnce .arm))
  | pulseArm (hs : s.seq = .pulseOnce .arm) : Effect s .pulseOnce (s.arm.finish 0)
  | disableAccepted (hs : s.seq = .idle) (hi : s.init = true) : Effect s .disable (s.goto (.disable .deactivate))
  | disableDeactivate (hs : s.seq = .disable .deactivate) :
      Effect s .disable (s.deactivate.goto (.disable .readLevel))
  | disableLevel (hs : s.seq = .disable .readLevel) (hl : s.cfgLevel ≤ s.bl.toNat) :
      Effect s .disable (s.goto (.disable (.body (BodyPoint.first (BitVec.ofNat 16 s.cfgLevel)))))
  | disableBody (p : BodyPoint) (hs : s.seq = .disable (.body p)) :
      Effect s .disable (Machine.setBody p (fun p => .disable (.body p)) (fun s => s.finish 0) s)
  | reqAccepted (hs : s.seq = .idle) (hi : s.init = true) : Effect s .reqSelfDisable (s.goto .reqSelfDisable)
  | reqHalt (hs : s.seq = .reqSelfDisable) (hl : s.cfgLevel ≤ s.bl.toNat) :
      Effect s .reqSelfDisable ((s.setHalt (haltFor (BitVec.ofNat 16 s.cfgLevel))).finish 0)
  | started (hs : s.seq = .idle) (hi : s.init = false) :
      Effect s .initPorts (s.startUp.goto (.initPorts .readLevel))
  | initLevel (hs : s.seq = .initPorts .readLevel) (hl : s.cfgLevel ≤ s.bl.toNat) :
      Effect s .initPorts (s.goto (.initPorts (.body (BodyPoint.first (BitVec.ofNat 16 s.cfgLevel)))))
  | initBody (p : BodyPoint) (hs : s.seq = .initPorts (.body p)) :
      Effect s .initPorts
        (Machine.setBody p (fun p => .initPorts (.body p)) (fun s => s.goto (.initPorts .readBreathing)) s)
  | initBreathes (hs : s.seq = .initPorts .readBreathing) (hb : s.cfgBreathing = true) :
      Effect s .initPorts (s.goto (.initPorts (.enable .phase)))
  | initEnds (hs : s.seq = .initPorts .readBreathing) (hb : s.cfgBreathing = false) :
      Effect s .initPorts (s.finish 0)
  | initEnable (p : EnablePoint) (hs : s.seq = .initPorts (.enable p)) :
      Effect s .initPorts (Machine.enableBody p (fun p => .initPorts (.enable p)) s)

variable {s t : State}

theorem accept_effect {i : Instr} {first : State → State} (hs : s.seq = .idle) (h : accept i s first = .next t)
    (k : admission i s = .none → Effect s i (first s)) : Effect s i t := by
  obtain ⟨ha, rfl⟩ | ⟨ha, rfl⟩ := accept_next h
  · exact k ha
  · exact .raised i _ _ ha (.inr ⟨hs, ha⟩)

theorem level_effect {i : Instr} {k : Half → Result} (h : withLevel s k = .next t)
    (e : s.cfgLevel ≤ s.bl.toNat → k (BitVec.ofNat 16 s.cfgLevel) = .next t → Effect s i t) : Effect s i t := by
  obtain ⟨hl, rfl⟩ | ⟨hl, h⟩ := withLevel_next h
  · exact .raised i _ _ (by decide) (.inl fun hr => absurd hr.1 (by omega))
  · exact e hl h

theorem init_of_admission {i : Instr} (hi : admission i s = .none) (h1 : i ≠ .initPorts) (h2 : ∀ v, i ≠ .map v)
    (h3 : i ≠ .tick) : s.init = true := by
  cases i <;> simp_all [admission]
  by_contra h
  simp [h] at hi

theorem pulse_effect (hs : s.seq = .pulseOnce .readLevel) (h : pulseStart s = .next t) : Effect s .pulseOnce t := by
  refine level_effect h fun hl h => ?_
  split at h
  · cases h
    exact .pulseOff hs ((level_eq_zero hl).mp ‹_›)
  · obtain ⟨hp, rfl⟩ | ⟨h1, h2, h⟩ := withPeriod_next h
    · exact .raised _ _ _ (by decide) (.inl fun hr => by have := hr.2; omega)
    · cases h
      exact .pulseOn hs (fun h0 => ‹¬ _› ((level_eq_zero hl).mpr h0)) hl h1 h2

/-- Everything `exec` can do when it answers a next state. -/
theorem exec_effect {i : Instr} (h : exec i s = .next t) : s.fault = .none ∧ Effect s i t := by
  cases i with
  | tick =>
    obtain ⟨hf, ⟨hd, rfl⟩ | ⟨_, hp, rfl⟩ | ⟨_, _, _, hl, rfl⟩ | ⟨hd, h1, h2, hl, rfl⟩⟩ := execTick_next h
    · exact ⟨hf, .undelivered hd⟩
    · exact ⟨hf, .raised _ _ _ (by decide) (.inl fun hr => by have := hr.2; omega)⟩
    · exact ⟨hf, .raised _ _ _ (by decide) (.inl fun hr => absurd hr.1 (by omega))⟩
    · exact ⟨hf, .frame hd h1 h2 hl⟩
  | map v =>
    simp only [exec, execMap] at h
    obtain ⟨hf, h⟩ := running_next h
    refine ⟨hf, ?_⟩
    split at h
    · exact accept_effect ‹_› h fun _ => .mapped v ‹_›
    · cases h
  | isActive =>
    simp only [exec, execIsActive] at h
    obtain ⟨hf, h⟩ := running_next h
    refine ⟨hf, ?_⟩
    split at h
    · exact accept_effect ‹_› h fun ha => .answered ‹_› (init_of_admission ha (by simp) (by simp) (by simp))
    · cases h
  | set L =>
    simp only [exec, execSet] at h
    obtain ⟨hf, h⟩ := running_next h
    refine ⟨hf, ?_⟩
    split at h
    · refine accept_effect ‹_› h fun ha => .setAccepted L ‹_› (init_of_admission ha (by simp) (by simp) (by simp)) ?_
      have hi := init_of_admission ha (by simp) (by simp) (by simp)
      simpa [admission, hi] using ha
    · split at h
      · cases h
        rename_i p hs hL
        subst hL
        exact .setBody p hs
      · cases h
    · cases h
  | enable =>
    simp only [exec, execEnable] at h
    obtain ⟨hf, h⟩ := running_next h
    refine ⟨hf, ?_⟩
    split at h
    · exact accept_effect ‹_› h fun ha => .enableAccepted ‹_› (init_of_admission ha (by simp) (by simp) (by simp))
    · cases h
      exact .enableBody _ ‹_›
    · cases h
  | pulseOnce =>
    simp only [exec, execPulseOnce] at h
    obtain ⟨hf, h⟩ := running_next h
    refine ⟨hf, ?_⟩
    split at h
    · exact accept_effect ‹_› h fun ha => .pulseAccepted ‹_› (init_of_admission ha (by simp) (by simp) (by simp))
    · exact pulse_effect ‹_› h
    · cases h
      exact .pulseHalt ‹_›
    · cases h
      exact .pulseArm ‹_›
    · cases h
  | disable =>
    simp only [exec, execDisable] at h
    obtain ⟨hf, h⟩ := running_next h
    refine ⟨hf, ?_⟩
    split at h
    · exact accept_effect ‹_› h fun ha => .disableAccepted ‹_› (init_of_admission ha (by simp) (by simp) (by simp))
    · cases h
      exact .disableDeactivate ‹_›
    · exact level_effect h fun hl h => by cases h; exact .disableLevel ‹_› hl
    · cases h
      exact .disableBody _ ‹_›
    · cases h
  | reqSelfDisable =>
    simp only [exec, execReqSelfDisable] at h
    obtain ⟨hf, h⟩ := running_next h
    refine ⟨hf, ?_⟩
    split at h
    · exact accept_effect ‹_› h fun ha => .reqAccepted ‹_› (init_of_admission ha (by simp) (by simp) (by simp))
    · exact level_effect h fun hl h => by cases h; exact .reqHalt ‹_› hl
    · cases h
  | initPorts =>
    simp only [exec, execInitPorts] at h
    obtain ⟨hf, h⟩ := running_next h
    refine ⟨hf, ?_⟩
    split at h
    · refine accept_effect ‹_› h fun ha => .started ‹_› ?_
      by_contra hi
      simp [admission, hi] at ha
    · exact level_effect h fun hl h => by cases h; exact .initLevel ‹_› hl
    · cases h
      exact .initBody _ ‹_›
    · cases h
      split
      · exact .initBreathes ‹_› ‹_›
      · exact .initEnds ‹_› (Bool.eq_false_of_not_eq_true ‹¬ _›)
    · cases h
      exact .initEnable _ ‹_›
    · cases h

/-! ## When an instruction answers a next state -/

theorem accept_answers (i : Instr) (s : State) (first : State → State) : ∃ t, accept i s first = .next t := by
  unfold accept
  split <;> exact ⟨_, rfl⟩

theorem level_answers {k : Half → Result} (h : ∀ l, ∃ t, k l = .next t) : ∃ t, withLevel s k = .next t := by
  unfold withLevel
  split
  · exact ⟨_, rfl⟩
  · exact h _

theorem period_answers {k : Nat → Result} (h : ∀ p, ∃ t, k p = .next t) : ∃ t, withPeriod s k = .next t := by
  unfold withPeriod
  split
  · exact ⟨_, rfl⟩
  · exact h _

theorem pulse_answers (s : State) : ∃ t, pulseStart s = .next t :=
  level_answers fun l => by
    split
    · exact ⟨_, rfl⟩
    · exact period_answers fun _ => ⟨_, rfl⟩

/-- Without a fault, a tick, a command offered to an idle foreground, and the command in progress each answer a next state. -/
theorem exec_answers {i : Instr} (hf : s.fault = .none)
    (h : i = .tick ∨ s.seq = .idle ∨ s.seq.instr = some i) : ∃ t, exec i s = .next t := by
  cases i with
  | tick =>
    rw [exec, execTick, running_of hf]
    split
    · exact period_answers fun _ => level_answers fun _ => ⟨_, rfl⟩
    · exact ⟨_, rfl⟩
  | map v =>
    rw [exec, execMap, running_of hf]
    cases hs : s.seq <;> simp_all [Seq.instr, accept_answers]
  | isActive =>
    rw [exec, execIsActive, running_of hf]
    cases hs : s.seq <;> simp_all [Seq.instr, accept_answers]
  | set L =>
    rw [exec, execSet, running_of hf]
    cases hs : s.seq <;> simp_all [Seq.instr, accept_answers]
  | enable =>
    rw [exec, execEnable, running_of hf]
    cases hs : s.seq <;> simp_all [Seq.instr, accept_answers]
  | pulseOnce =>
    rw [exec, execPulseOnce, running_of hf]
    cases hs : s.seq with
    | idle => exact accept_answers _ _ _
    | pulseOnce p => cases p <;> simp [pulse_answers]
    | _ => simp_all [Seq.instr]
  | disable =>
    rw [exec, execDisable, running_of hf]
    cases hs : s.seq with
    | idle => exact accept_answers _ _ _
    | disable p => cases p <;> simp [level_answers]
    | _ => simp_all [Seq.instr]
  | reqSelfDisable =>
    rw [exec, execReqSelfDisable, running_of hf]
    cases hs : s.seq with
    | idle => exact accept_answers _ _ _
    | reqSelfDisable => exact level_answers fun _ => ⟨_, rfl⟩
    | _ => simp_all [Seq.instr]
  | initPorts =>
    rw [exec, execInitPorts, running_of hf]
    cases hs : s.seq with
    | idle => exact accept_answers _ _ _
    | initPorts p => cases p <;> simp [level_answers]
    | _ => simp_all [Seq.instr]

end Sys2Proof.Machine
end

