-- ==== Sys2Proof/Laws/MapperTable.lean ====
section
/-! SUPPORT. The rows of R106's table: each is one value of `y`, and together they leave no gap. -/

namespace Sys2Proof.Machine

/-- A row's ends have the same `y`, and its value is the clamped cube of it. -/
def MapRow.ok (r : MapRow) : Bool := mapY r.lo == mapY r.hi && min (mapCube (mapY r.lo)) 65535 == r.value

/-- The rows follow one another from `n` on and end at `last`. -/
def rowsFrom (last : Nat) : Nat → List MapRow → Bool
  | n, [] => n == last + 1
  | n, r :: rs => r.lo == n && r.lo ≤ r.hi && rowsFrom last (r.hi + 1) rs

theorem mapRows_ok : mapRows.all MapRow.ok = true := by decide +kernel

theorem mapRows_from : rowsFrom 65535 5244 mapRows = true := by decide +kernel

/-- Rows without a gap hold every number of their range. -/
theorem rowsFrom_cover {last : Nat} (rs : List MapRow) :
    ∀ n, rowsFrom last n rs = true → ∀ v, n ≤ v → v ≤ last → ∃ r ∈ rs, r.lo ≤ v ∧ v ≤ r.hi := by
  induction rs with
  | nil =>
    intro n h v h1 h2
    simp only [rowsFrom, beq_iff_eq] at h
    omega
  | cons r rs ih =>
    intro n h v h1 h2
    simp only [rowsFrom, Bool.and_eq_true, beq_iff_eq, decide_eq_true_eq] at h
    by_cases hv : v ≤ r.hi
    · exact ⟨r, by simp, by omega, hv⟩
    · obtain ⟨q, hq, hin⟩ := ih _ h.2 v (by omega) h2
      exact ⟨q, List.mem_cons_of_mem _ hq, hin⟩

/-- Every input of the high segment has a row (R106). -/
theorem mapRows_cover {v : Nat} (h1 : 5244 ≤ v) (h2 : v ≤ 65535) : ∃ r ∈ mapRows, r.lo ≤ v ∧ v ≤ r.hi :=
  rowsFrom_cover mapRows 5244 mapRows_from v h1 h2

/-- `y` grows with the input, so a row's inputs all have its `y`. -/
theorem mapY_mono {u v : Nat} (h : u ≤ v) : mapY u ≤ mapY v := by
  rw [mapY_eq, mapY_eq]
  omega

end Sys2Proof.Machine
end

