-- ==== Sys2Proof/Laws/Waveform.lean ====
section
/-! SUPPORT. The parameter WAVE lies between its ends, whatever the uninterpreted samples are (10_state.md R31). -/

namespace Sys2Proof.Machine

/-- A running minimum is below its start and below every sample it has met. -/
theorem foldl_min_le (f : Nat → Byte) (l : List Nat) (a : Byte) :
    l.foldl (fun m k => if f k < m then f k else m) a ≤ a ∧
    ∀ k ∈ l, l.foldl (fun m k => if f k < m then f k else m) a ≤ f k := by
  induction l generalizing a with
  | nil => simp
  | cons x xs ih =>
    obtain ⟨h1, h2⟩ := ih (if f x < a then f x else a)
    rw [List.foldl_cons]
    refine ⟨BitVec.le_trans h1 ?_, fun k hk => ?_⟩
    · split
      · exact BitVec.le_of_lt ‹_›
      · exact BitVec.le_refl _
    · rcases List.mem_cons.mp hk with rfl | hk
      · refine BitVec.le_trans h1 ?_
        split
        · exact BitVec.le_refl _
        · exact BitVec.not_lt.mp ‹_›
      · exact h2 k hk

/-- A running maximum is above its start and above every sample it has met. -/
theorem le_foldl_max (f : Nat → Byte) (l : List Nat) (a : Byte) :
    a ≤ l.foldl (fun m k => if m < f k then f k else m) a ∧
    ∀ k ∈ l, f k ≤ l.foldl (fun m k => if m < f k then f k else m) a := by
  induction l generalizing a with
  | nil => simp
  | cons x xs ih =>
    obtain ⟨h1, h2⟩ := ih (if a < f x then f x else a)
    rw [List.foldl_cons]
    refine ⟨BitVec.le_trans ?_ h1, fun k hk => ?_⟩
    · split
      · exact BitVec.le_of_lt ‹_›
      · exact BitVec.le_refl _
    · rcases List.mem_cons.mp hk with rfl | hk
      · refine BitVec.le_trans ?_ h1
        split
        · exact BitVec.le_refl _
        · exact BitVec.not_lt.mp ‹_›
      · exact h2 k hk

theorem waveMin_le {k : Nat} (h : k < 64) : Config.waveMin ≤ Config.sampleSource k :=
  (foldl_min_le _ _ _).2 k (List.mem_range.mpr h)

theorem le_waveMax {k : Nat} (h : k < 64) : Config.sampleSource k ≤ Config.waveMax :=
  (le_foldl_max _ _ _).2 k (List.mem_range.mpr h)

theorem mirror_lt (i : Index) : Config.mirror i < 64 := by
  have := i.isLt
  unfold Config.mirror
  split <;> omega

/-- The samples of the rising half lie between its ends. -/
theorem rise_between {k : Nat} (h : k < 64) : Config.waveMin ≤ Config.rise k ∧ Config.rise k ≤ Config.waveMax := by
  have ends : Config.waveMin ≤ Config.waveMax := BitVec.le_trans (waveMin_le (by decide)) (le_waveMax (k := 0) (by decide))
  unfold Config.rise
  split
  · exact ⟨BitVec.le_refl _, ends⟩
  · split
    · exact ⟨ends, BitVec.le_refl _⟩
    · exact ⟨waveMin_le h, le_waveMax h⟩

theorem rise_ends : Config.rise 0 = Config.waveMin ∧ Config.rise 63 = Config.waveMax := ⟨rfl, rfl⟩

theorem mirror_mirror {i : Index} (h : i.toNat < 64) : Config.mirror (127 - i) = Config.mirror i := by
  have e : (127 - i).toNat = 127 - i.toNat := by
    rw [BitVec.toNat_sub_of_le (by rw [BitVec.le_def]; simp; omega)]
    rfl
  unfold Config.mirror
  rw [e, if_neg (by omega), if_pos h]
  omega

/-- `Config.wave` meets W1 to W3, whatever its source samples are (10_state.md R31). -/
theorem waveLegal_unlisted : WaveLegal [] where
  mirrored _ h := (congrArg Config.rise (mirror_mirror h)).symm
  peak i := (rise_between (mirror_lt i)).2
  ends := rfl
  floor i := (rise_between (mirror_lt i)).1

/-- BL is at least 1, whatever its source is (00_scope.md R7). -/
theorem bl_pos : 1 ≤ Config.bl.toNat := by
  unfold Config.bl
  split
  · decide
  · rename_i h
    by_contra hc
    exact h (BitVec.eq_of_toNat_eq (by simp; omega))

end Sys2Proof.Machine
end

