-- ==== Sys2Proof/Tests/Slice0.lean ====
section
/-! SUPPORT. The model's own tests. Expected values are the spec's (95_test_vectors.md, or the examples of the rule named);
the witnesses show that the hypotheses of each statement can be met together. -/

namespace Sys2Proof.Tests

open Sys2Proof.Machine

/-! ## Fixtures -/

/-- An initialised, idle block with `BL = 3`, level 2 and period 6; of the table, the samples of `TW` that the vectors use. -/
def idle : State :=
  { State.reset with
    init := true, bl := 3, cfgLevel := 2, cfgPeriod := 6, rom := [(0, 0), (1, 0), (64, 255), (126, 0), (127, 0)] }

/-- The same block breathing at full level with `P = 1`. -/
def breathing : State := { idle with active := true, notify := true, cfgLevel := 3, cfgPeriod := 1 }

/-- The block with the foreground about to issue `w`. -/
def issuing (w : Word) : State := { idle with commands := [w], agenda := [.foreground] }

/-- The block in the middle of a command. -/
def amid (q : Seq) : State := { idle with seq := q, agenda := [.foreground] }

/-- A faulted block. -/
def faulted : State := { idle with fault := .reserved, faultInfo := 0 }

/-- What a test looks at in the next state. -/
def seen {α : Type} (f : State → α) : Result → Option α
  | .next s => some (f s)
  | .fault _ => none
  | .refused _ => none

/-! ## WellFormed: what each port refuses (R71, R74) -/

theorem test_command_port_refuses_tick : Instr.tick.wellFormed .command = false := by decide
theorem test_event_port_refuses_init_ports : Instr.initPorts.wellFormed .event = false := by decide
theorem test_event_port_refuses_set : (Instr.set 2).wellFormed .event = false := by decide
theorem test_event_port_refuses_enable : Instr.enable.wellFormed .event = false := by decide
theorem test_event_port_refuses_pulse_once : Instr.pulseOnce.wellFormed .event = false := by decide
theorem test_event_port_refuses_disable : Instr.disable.wellFormed .event = false := by decide
theorem test_event_port_refuses_req_self_disable : Instr.reqSelfDisable.wellFormed .event = false := by decide
theorem test_event_port_refuses_is_active : Instr.isActive.wellFormed .event = false := by decide
theorem test_event_port_refuses_map : (Instr.map 2).wellFormed .event = false := by decide

/-! ## Decode: words written out from 30_encoding.md R70 to R80, bit by bit -/

theorem test_decode_init_ports : decode .command 0b00000000000000000000000000000001 = .instr .initPorts := by decide
theorem test_decode_set : decode .command 0b10000000000000010000000000000010 = .instr (.set 0x8001) := by decide
theorem test_decode_enable : decode .command 0b00000000000000000000000000000011 = .instr .enable := by decide
theorem test_decode_pulse_once : decode .command 0b00000000000000000000000000000100 = .instr .pulseOnce := by decide
theorem test_decode_disable : decode .command 0b00000000000000000000000000000101 = .instr .disable := by decide
theorem test_decode_req_self_disable :
    decode .command 0b00000000000000000000000000000110 = .instr .reqSelfDisable := by decide
theorem test_decode_is_active : decode .command 0b00000000000000000000000000000111 = .instr .isActive := by decide
theorem test_decode_map : decode .command 0b00010100011110110000000000001000 = .instr (.map 5243) := by decide
theorem test_decode_tick : decode .event 0b00000000000000000000000000001001 = .instr .tick := by decide

/-- The reserved words of 95_test_vectors.md 2.6. -/
theorem test_reserved_words :
    decode .command 0x00000000 = .rejected .reservedOpcode ∧ decode .command 0x00000009 = .rejected .reservedOpcode ∧
    decode .command 0x0000000A = .rejected .reservedOpcode ∧ decode .command 0x0000000F = .rejected .reservedOpcode ∧
    decode .command 0x00000013 = .rejected .reservedBits ∧ decode .command 0x00008001 = .rejected .reservedBits ∧
    decode .command 0x00010003 = .rejected .strayOperand ∧ decode .command 0x80000001 = .rejected .strayOperand := by
  decide

/-- Event words other than the tick's (R74). -/
theorem test_unknown_events :
    decode .event 0x00000001 = .rejected .unknownEvent ∧ decode .event 0x00010009 = .rejected .unknownEvent := by decide

/-- Words of the wrong length, and the order of a word's bytes (20_memory.md R52). -/
theorem test_bytes :
    decodeBytes .command [0x08, 0x00, 0x7B, 0x14] = .instr (.map 0x147B) ∧
    decodeBytes .command [0x01] = .rejected .wrongLength := by decide

/-- The host's numbering: the tick's row is the event's, every other row a command's. -/
theorem test_decode_table_word :
    decodeTableWord 32 0x00000009 = some .tick ∧ decodeTableWord 32 0xFFFF0002 = some (.set 0xFFFF) ∧
    decodeTableWord 16 0xFFFF0008 = some (.map 0) ∧ decodeTableWord 32 0x0000000A = none := by decide

/-- The very next step runs the word placed (R80). -/
theorem test_fetch_words :
    seen State.responses (step (State.reset.withFetchWord 32 0x147B0008)) = some [0x00000246] ∧
    seen State.init (step (State.reset.withFetchWord 32 0x00000001)) = some true ∧
    seen State.phase (step (State.reset.withFetchWord 32 0x00000009)) = some 1 := by decide

/-! ## The assembler (R78) -/

theorem test_assemble_set : assembleLine ['S', 'E', 'T', ' ', '2', ' ', ';', 'x'] = some [.set 2] := by decide
theorem test_assemble_map : assembleLine ['M', 'A', 'P', ' ', '0', 'x', '1', '4', '7', 'B'] = some [.map 0x147B] := by decide
theorem test_assemble_ticks : assembleLine ['T', 'I', 'C', 'K', ' ', 'x', '3'] = some [.tick, .tick, .tick] := by decide
theorem test_assemble_refuses :
    assembleLine ['S', 'E', 'T', ' ', '6', '5', '5', '3', '6'] = none ∧ assembleLine ['S', 'E', 'T'] = none ∧
    assembleLine ['E', 'N', 'A', 'B', 'L', 'E', ' ', '1'] = none := by decide
theorem test_assemble_listing :
    assemble ['M', 'A', 'P', ' ', '9', '\n', ';', '\n', 'T', 'I', 'C', 'K'] = some [.map 9, .tick] := by decide

/-! ## Values of 95_test_vectors.md 2.1, 2.2, 2.4 and 2.5 -/

theorem test_map_low : mapDuty 8 = 0 ∧ mapDuty 9 = 1 ∧ mapDuty 255 = 28 ∧ mapDuty 4950 = 550 ∧ mapDuty 5243 = 582 := by
  decide
theorem test_map_high :
    mapDuty 5244 = 549 ∧ mapDuty 5253 = 581 ∧ mapDuty 5550 = 615 ∧ mapDuty 32768 = 11908 ∧ mapDuty 43690 = 23549 ∧
    mapDuty 65280 = 64770 ∧ mapDuty 65534 = 64770 ∧ mapDuty 65535 = 65535 := by decide
theorem test_static_duty :
    staticDuty 1 1 = 65535 ∧ staticDuty 3 1 = 4920 ∧ staticDuty 3 2 = 23549 ∧ staticDuty 15 7 = 10265 ∧
    staticDuty 65535 1 = 0 ∧ staticDuty 65535 32767 = 11908 := by decide
theorem test_next_phase :
    nextPhase 255 1 = 0 ∧ nextPhase 511 2 = 0 ∧ nextPhase 1535 6 = 0 ∧ nextPhase 65535 256 = 0 ∧ nextPhase 65534 256 = 65535 ∧
    nextPhase 1000 1 = 233 := by decide
theorem test_wave_index :
    waveIndex 128 1 = 64 ∧ waveIndex 129 1 = 64 ∧ waveIndex 254 1 = 127 ∧ waveIndex 3 2 = 0 ∧ waveIndex 12 6 = 1 ∧
    waveIndex 769 6 = 64 ∧ waveIndex 512 256 = 1 ∧ waveIndex 65024 256 = 127 ∧ waveIndex 233 1 = 116 := by decide
theorem test_halt_hits :
    haltHits .none 64 = false ∧ haltHits .atOn 64 = true ∧ haltHits .atOn 127 = false ∧ haltHits .atOff 126 = false ∧
    haltHits .atOff 127 = true ∧ haltHits .atOff 64 = false := by decide
theorem test_scale :
    scale .doc 3 255 1 = 85 ∧ scale .doc 3 2 3 = 0 ∧ scale .doc 15 255 7 = 119 ∧ scale .upstreamX256 3 2 3 = 512 ∧
    scale .upstreamX256 15 255 7 = 30464 ∧ scale .upstreamX256 65535 255 65535 = 65280 := by decide

/-! ## One step of each instruction -/

/-- Program A: the first micro-step. -/
theorem test_init_ports_start :
    seen (fun s => (s.init, s.active, s.notify, s.out)) (exec .initPorts { idle with init := false, active := true }) =
      some (true, false, false, [.start .null]) := by decide
/-- Program H: a second INIT_PORTS. -/
theorem test_init_ports_again :
    seen State.faultOutput (exec .initPorts idle) = some (3, 0x00000001) := by decide

/-- R120's example: `SET 2` with `BL = 3`. -/
theorem test_set_two :
    seen State.out (exec (.set 2) (amid (.set (.enable 2)))) =
      some [.enableCh 0 23549, .enableCh 1 23549, .enableCh 2 23549, .enableCh 3 23549, .enableCh 4 23549] := by decide +kernel
/-- 2.2: `SET 4` with `BL = 3`. -/
theorem test_set_four :
    seen (fun s => (s.faultOutput, s.out)) (exec (.set 4) idle) = some ((4, 0x00040002), []) := by decide

/-- 2.3: the stream of an arm. -/
theorem test_enable_arms :
    seen (fun s => (s.out, s.active, s.notify)) (exec .enable (amid (.enable .arm))) =
      some ([.stop, .start .tick, .enableNotify], true, true) := by decide
/-- 2.6: before INIT_PORTS. -/
theorem test_enable_before_init :
    seen State.faultOutput (exec .enable { idle with init := false }) = some (2, 0x00000003) := by decide

/-- R144's example: level 2, period 6. -/
theorem test_pulse_once_phase :
    seen State.phase (exec .pulseOnce (amid (.pulseOnce .readLevel))) = some 768 := by decide
/-- 2.3: level 0 with period 0 does not fault. -/
theorem test_pulse_once_dark :
    seen (fun s => (s.fault, s.phase)) (exec .pulseOnce
      { amid (.pulseOnce .readLevel) with cfgLevel := 0, cfgPeriod := 0, phase := 9 }) = some (.none, 0) := by decide

/-- 2.3: the deactivation keeps PHASE and HALT. -/
theorem test_disable_keeps_phase :
    seen (fun s => (s.out, s.active, s.phase, s.halt)) (exec .disable
      { breathing with seq := .disable .deactivate, phase := 300, halt := .atOn }) =
      some ([.stop, .start .null], false, 300, .atOn) := by decide
/-- R146's example: level 3 is full on. -/
theorem test_disable_restores :
    seen State.out (exec .disable (amid (.disable (.body (.enable 3))))) =
      some [.enableCh 0 65535, .enableCh 1 65535, .enableCh 2 65535, .enableCh 3 65535, .enableCh 4 65535] := by decide +kernel

/-- 2.3: level 2 asks for the "on" extreme. -/
theorem test_req_self_disable_on :
    seen State.halt (exec .reqSelfDisable (amid .reqSelfDisable)) = some .atOn := by decide
/-- 2.3: level 0 asks for the "off" extreme. -/
theorem test_req_self_disable_off :
    seen State.halt (exec .reqSelfDisable { amid .reqSelfDisable with cfgLevel := 0 }) = some .atOff := by decide

theorem test_is_active_yes : seen State.responses (exec .isActive breathing) = some [0x00000001] := by decide
theorem test_is_active_no : seen State.responses (exec .isActive idle) = some [0x00000000] := by decide

/-- R109's example, before INIT_PORTS. -/
theorem test_map_command :
    seen State.responses (exec (.map 0x147B) { idle with init := false }) = some [0x00000246] := by decide
/-- 2.1: the response's upper half is zero. -/
theorem test_map_full : seen State.responses (exec (.map 65535) idle) = some [0x0000FFFF] := by decide

/-- R170's example, and Program F's last frame under DOC: the halting tick writes its frame after the deactivation. -/
theorem test_tick_halts :
    seen (fun s => (s.phase, s.active, s.out)) (exec .tick { breathing with phase := 127, halt := .atOn }) =
      some (128, false, [.stop, .start .null, .enableCh 0 28, .enableCh 1 28, .enableCh 2 28, .enableCh 3 28,
        .enableCh 4 28]) := by decide
/-- Program D under UPSTREAM_X256. -/
theorem test_tick_upstream :
    seen (fun s => (s.phase, s.out.getLast?)) (exec .tick
      { breathing with phase := 768, halt := .atOn, cfgLevel := 2, cfgPeriod := 6, scaleVariant := .upstreamX256 }) =
      some (769, some (.enableCh 4 23163)) := by decide +kernel

/-- 2.2's mixed state under the reference backend. -/
theorem test_backend_mixed :
    (Backend.run ([.disableCh 0, .disableCh 1] ++ enableAll 28 ++ [.disableCh 2, .disableCh 3, .disableCh 4])).channels =
      #v[some 28, some 28, none, none, none] := by decide

/-- SEQ in the form of R21: the word and the micro-step that comes next. -/
theorem test_seq_position :
    (Seq.set (.enable 2)).position = some (0x00020002, 1) ∧ (Seq.set (.disable 4)).position = some (0x00000002, 5) ∧
    Seq.reqSelfDisable.position = some (0x00000006, 1) ∧ Seq.idle.position = none := by decide

/-! ## Witnesses -/

theorem witness_EncodedInstructionDecodesToItself :
    (Instr.set 0xFFFF).wellFormed .command = true ∧ (Instr.map 0).wellFormed .command = true ∧
    Instr.tick.wellFormed .event = true := by decide

theorem witness_DecodedWordIsItsEncoding :
    decode .command 0xFFFF0002 = .instr (.set 0xFFFF) ∧ decode .event 0x00000009 = .instr .tick := by decide

theorem witness_StepRunsTheDecodedCommand :
    let s := issuing 0x00030002
    s.fault = .none ∧ s.seq = .idle ∧ s.nextMove = .foreground ∧ s.commands = [0x00030002] ∧
    decode .command 0x00030002 = .instr (.set 3) := by decide

theorem witness_StepRunsTheCommandInProgress :
    let s := amid (.set (.disable 4))
    s.fault = .none ∧ s.nextMove = .foreground ∧ s.seq.instr = some (.set 0) := by decide

theorem witness_StepDeliversEvents :
    (∃ s : State, s.fault = .none ∧ s.nextMove = .event 0x00000009) ∧
    ∃ s : State, s.fault = .none ∧ s.nextMove = .event 0x0000000A :=
  ⟨⟨{ breathing with agenda := [.event 0x00000009] }, by decide⟩, ⟨{ idle with agenda := [.event 0x0000000A] }, by decide⟩⟩

theorem witness_StepTakesTheWorldsMoves :
    ({ idle with agenda := [.drive 7] } : State).nextMove = .drive 7 ∧
    ({ idle with agenda := [.store 9 0 true] } : State).nextMove = .store 9 0 true ∧
    ({ idle with agenda := [.foreground] } : State).nextMove = .foreground ∧ idle.fault = .none ∧ idle.seq = .idle ∧
    idle.commands = [] := by decide

theorem witness_ReservedWordRaisesReserved :
    let s := issuing 0x00000000
    s.fault = .none ∧ s.seq = .idle ∧ s.nextMove = .foreground ∧ s.commands = [0x00000000] ∧
    ∀ i, decode .command 0x00000000 ≠ .instr i :=
  ⟨rfl, rfl, rfl, rfl, fun i h => Decoded.noConfusion (show Decoded.rejected .reservedOpcode = .instr i from h)⟩

theorem witness_StepStopsOnlyWhenFaulted :
    step { faulted with agenda := [.foreground] } = .fault .stopped ∧
    step { faulted with agenda := [.event 0x00000009] } = .fault .stopped ∧
    ∃ t, step { faulted with agenda := [.powerOn] } = .next t := ⟨rfl, rfl, _, rfl⟩

/-- Both sides of the breakpoint. -/
theorem witness_MapperFollowsTheAlgorithm : (5243#16).toNat ≤ 5243 ∧ 5243 < (5244#16).toNat ∧ 5243 < (65535#16).toNat := by
  decide

theorem witness_MapperFallsOnlyAtTheBreakpoint :
    5243 < 65535 ∧ mapDuty (BitVec.ofNat 16 5244) < mapDuty (BitVec.ofNat 16 5243) ∧ 5244 ≤ (5549#16).toNat ∧
    mapDuty 5549 < mapDuty 5243 ∧ mapDuty 5243 < mapDuty 5550 := by decide

theorem witness_MapperClampsOnlyAtFullScale :
    5243 < (5244#16).toNat ∧ (5244#16).toNat ≠ 65535 ∧ 5243 < (65534#16).toNat ∧ (65534#16).toNat ≠ 65535 := by decide

theorem witness_MapAnswersTheMapper : State.reset.fault = .none ∧ State.reset.seq = .idle := ⟨rfl, rfl⟩

/-- Each point of `SET`, at the ends of the level's range and of the channels'. -/
theorem witness_SetMicroSteps :
    (idle.fault = .none ∧ idle.seq = .idle ∧ idle.init = true ∧ (0 : Half) ≤ idle.bl ∧ (3 : Half) ≤ idle.bl) ∧
    ((amid (.set (.disable 3))).fault = .none ∧ (3 : Channel) ≠ 4 ∧
      (amid (.set (.disable 3))).seq = .set (.disable 3)) ∧
    (amid (.set (.disable 4))).seq = .set (.disable 4) ∧ (amid (.set (.enable 1))).seq = .set (.enable 1) ∧
    (amid (.set (.enable 1))).active = false ∧ ({ breathing with seq := .set (.enable 1) } : State).active = true := by
  decide

theorem witness_SetNeverFightsTheAnimation :
    let s (q : Seq) : State := { breathing with seq := q }
    idle.fault = .none ∧ (3 : Half) ≠ 0 ∧ idle.seq = .idle ∧ idle.init = true ∧ (3 : Half) ≤ idle.bl ∧
    (s (.set (.enable 3))).fault = .none ∧ (s (.set (.enable 3))).active = true ∧
    (s (.set (.enable 3))).seq = .set (.enable 3) ∧
    (s (.disable (.body (.enable 3)))).seq = .disable (.body (.enable 3)) ∧
    (s (.initPorts (.body (.enable 3)))).seq = .initPorts (.body (.enable 3)) := by decide

theorem witness_StaticDutyIsMapOfTheQuotient :
    1 ≤ (1#16).toNat ∧ 1#16 ≤ 65535#16 ∧ 1 ≤ (65535#16).toNat ∧ 65535#16 ≤ 65535#16 ∧ 1#16 ≤ 1#16 := by decide

/-- Every level, 0 and the top level among them. -/
theorem witness_SetRunsToItsEnd : ∀ L : Half, L ≤ 3 →
    let s : State := { issuing (encode (.set L)) with agenda := foregroundMoves (1 + bodySteps L) [] }
    s.fault = .none ∧ s.seq = .idle ∧ s.init = true ∧ s.active = false ∧ L ≤ s.bl ∧ s.commands = [encode (.set L)] ∧
    s.agenda = foregroundMoves (1 + bodySteps L) [] :=
  fun _ hL => ⟨rfl, rfl, rfl, rfl, hL, rfl, rfl⟩

theorem idle_inRange : idle.storeInRange := by unfold State.storeInRange; decide

theorem breathing_inRange : breathing.storeInRange := by unfold State.storeInRange; decide

/-- Before the first disable and before the last. -/
theorem witness_TickSplitsSetZero : ∀ k ∈ ([0, 4] : List Channel),
    let s : State := { breathing with
      seq := .set (.disable k), agenda := .event tickWord :: foregroundMoves (5 - k.val) [] }
    s.fault = .none ∧ s.seq = .set (.disable k) ∧ s.active = true ∧ s.notify = true ∧ s.halt = .none ∧
    (s.cfgLevel ≤ s.bl.toNat ∧ 1 ≤ s.cfgPeriod ∧ s.cfgPeriod ≤ 256) ∧
    s.agenda = .event tickWord :: foregroundMoves (5 - k.val) [] := by decide

theorem witness_InitPortsMicroSteps :
    State.reset.fault = .none ∧ State.reset.seq = .idle ∧ State.reset.init = false ∧
    ∀ p ∈ ([.readLevel, .body (.disable 0), .body (.disable 4), .body (.enable 3), .readBreathing, .enable .phase,
      .enable .halt, .enable .arm] : List InitPoint),
    ∀ l ∈ ([0, 3] : List Nat), ∀ b : Bool,
      let s : State := { amid (.initPorts p) with cfgLevel := l, cfgBreathing := b }
      s.fault = .none ∧ s.seq = .initPorts p ∧ s.active = false ∧ s.cfgLevel ≤ s.bl.toNat ∧ s.cfgBreathing = b :=
  ⟨rfl, rfl, rfl, by decide⟩

/-- Level 0 and the top level, with breathing and without. -/
theorem witness_InitPortsRunsToItsEnd : ∀ l ∈ ([0, 3] : List Nat), ∀ b : Bool,
    let n := 3 + bodySteps (BitVec.ofNat 16 l) + (if b then 3 else 0)
    let s : State := { issuing (encode .initPorts) with
      init := false, cfgLevel := l, cfgBreathing := b, agenda := foregroundMoves n [] }
    s.fault = .none ∧ s.seq = .idle ∧ s.init = false ∧ s.cfgLevel ≤ s.bl.toNat ∧ s.commands = [encode .initPorts] ∧
    s.agenda = foregroundMoves n [] := by decide

theorem witness_EnableMicroSteps :
    idle.fault = .none ∧ idle.seq = .idle ∧ idle.init = true ∧
    ∀ p ∈ ([.phase, .halt, .arm] : List EnablePoint), (amid (.enable p)).fault = .none ∧ (amid (.enable p)).seq = .enable p := by
  decide

/-- From an inactive block and from one that is breathing, with no tick between and with ticks at every point. -/
theorem witness_EnableRunsToItsEnd : ∀ (b : Bool) (k : Nat),
    let s : State := { issuing (encode .enable) with active := b, notify := b, agenda := ticksBetween k k k [] }
    s.fault = .none ∧ s.seq = .idle ∧ s.init = true ∧ s.storeInRange ∧ s.commands = [encode .enable] ∧
    s.agenda = ticksBetween k k k [] ∧ s.tickDeliverable = b ∧ s.halt = .none :=
  fun b _ => ⟨rfl, rfl, rfl, idle_inRange, rfl, rfl, by cases b <;> rfl, rfl⟩

/-- Level 0 with a period out of range and no tick, and the top level with ticks at every point. -/
theorem witness_PulseOnceRunsToItsEnd :
    (let s : State := { issuing (encode .pulseOnce) with
       cfgLevel := 0, cfgPeriod := 0, agenda := ticksBetween 0 0 0 [] }
     s.fault = .none ∧ s.seq = .idle ∧ s.init = true ∧ s.cfgLevel ≤ s.bl.toNat ∧ s.cfgLevel = 0 ∧
     s.tickDeliverable = false ∧ s.commands = [encode .pulseOnce] ∧ s.agenda = ticksBetween 0 0 0 []) ∧
    ∀ k : Nat,
      let s : State := { breathing with commands := [encode .pulseOnce], agenda := ticksBetween k k k [] }
      s.fault = .none ∧ s.seq = .idle ∧ s.init = true ∧ s.cfgLevel ≤ s.bl.toNat ∧ s.cfgLevel ≠ 0 ∧ s.storeInRange ∧
      s.tickDeliverable = true ∧ s.commands = [encode .pulseOnce] ∧ s.agenda = ticksBetween k k k [] :=
  ⟨⟨rfl, rfl, rfl, Nat.zero_le _, rfl, rfl, rfl, rfl⟩,
    fun _ => ⟨rfl, rfl, rfl, breathing_inRange.1, (by decide : 3 ≠ 0), breathing_inRange, rfl, rfl, rfl⟩⟩

/-- The ends of the level's and of the period's range. -/
theorem witness_PulseOnceMicroSteps :
    (idle.fault = .none ∧ idle.seq = .idle ∧ idle.init = true) ∧
    (∀ l ∈ ([1, 3] : List Nat), ∀ p ∈ ([1, 256] : List Nat),
      let s : State := { amid (.pulseOnce .readLevel) with cfgLevel := l, cfgPeriod := p }
      s.fault = .none ∧ s.seq = .pulseOnce .readLevel ∧ 1 ≤ s.cfgLevel ∧
      (s.cfgLevel ≤ s.bl.toNat ∧ 1 ≤ s.cfgPeriod ∧ s.cfgPeriod ≤ 256)) ∧
    ({ amid (.pulseOnce .readLevel) with cfgLevel := 0 } : State).cfgLevel = 0 ∧
    (amid (.pulseOnce .halt)).seq = .pulseOnce .halt ∧ (amid (.pulseOnce .arm)).seq = .pulseOnce .arm := by decide

theorem witness_DisableMicroSteps :
    idle.fault = .none ∧ idle.seq = .idle ∧ idle.init = true ∧ (0 : Channel) ≠ 4 ∧
    ∀ p ∈ ([.deactivate, .readLevel, .body (.disable 0), .body (.disable 4), .body (.enable 3)] : List DisablePoint),
    ∀ l ∈ ([0, 3] : List Nat),
      let s : State := { amid (.disable p) with cfgLevel := l }
      s.fault = .none ∧ s.seq = .disable p ∧ s.cfgLevel ≤ s.bl.toNat ∧ s.active = false := by decide

/-- Every level stored and commanded, 0 and the top level among them. -/
theorem witness_DisableThenSetRestoresTheStaticLevel : ∀ (l : Nat) (L : Half), l ≤ 3 → L ≤ 3 →
    let n := 3 + bodySteps (BitVec.ofNat 16 l) + (1 + bodySteps L)
    let s : State := { breathing with
      cfgLevel := l, commands := [encode .disable, encode (.set L)], agenda := foregroundMoves n [] }
    s.fault = .none ∧ s.seq = .idle ∧ s.init = true ∧ s.cfgLevel ≤ s.bl.toNat ∧ L ≤ s.bl ∧
    s.commands = [encode .disable, encode (.set L)] ∧ s.agenda = foregroundMoves n [] :=
  fun _ _ hl hL => ⟨rfl, rfl, rfl, hl, hL, rfl, rfl⟩

theorem witness_ReqSelfDisableMicroSteps :
    (idle.fault = .none ∧ idle.seq = .idle ∧ idle.init = true) ∧
    ∀ l ∈ ([0, 3] : List Nat),
      let s : State := { amid .reqSelfDisable with cfgLevel := l }
      s.fault = .none ∧ s.seq = .reqSelfDisable ∧ s.cfgLevel ≤ s.bl.toNat := by decide

theorem witness_IsActiveAnswersActive : breathing.fault = .none ∧ breathing.seq = .idle ∧ breathing.init = true := by decide

theorem witness_ActivityRisesOnlyByArm :
    ∃ s t : State, step s = .next t ∧ s.active = false ∧ t.active = true := ⟨amid (.enable .arm), _, rfl, rfl, rfl⟩

/-- Both ends of the period's range, a halting tick and one that goes on, both scalers. -/
theorem witness_TickAdvancesAndWritesItsFrame : ∀ p ∈ ([1, 256] : List Nat), ∀ h ∈ ([.none, .atOn] : List HaltMode),
    ∀ v ∈ ([.doc, .upstreamX256] : List ScaleVariant),
    let s : State := { breathing with
      phase := BitVec.ofNat 16 (128 * p), halt := h, cfgPeriod := p, scaleVariant := v }
    s.fault = .none ∧ s.active = true ∧ s.notify = true ∧
    (s.cfgLevel ≤ s.bl.toNat ∧ 1 ≤ s.cfgPeriod ∧ s.cfgPeriod ≤ 256) ∧
    ((s.halt = .atOn ∧ (s.phase.toNat + 1) % (s.cfgPeriod * 256) / (2 * s.cfgPeriod) = 64) ↔ h = .atOn) := by decide

theorem witness_TickIsAModularCounter : ∀ p ∈ ([1, 256] : List Nat),
    let s : State := { breathing with phase := 65535, cfgPeriod := p }
    s.fault = .none ∧ s.active = true ∧ s.notify = true ∧
    (s.cfgLevel ≤ s.bl.toNat ∧ 1 ≤ s.cfgPeriod ∧ s.cfgPeriod ≤ 256) := by decide

/-- A tick that halts and a tick that goes on. -/
theorem witness_TickHaltsExactlyAtItsTarget :
    (∃ s t : State, s.tickDeliverable = true ∧ s.storeInRange ∧ exec .tick s = .next t ∧ t.active = false) ∧
    ∃ s t : State, s.tickDeliverable = true ∧ s.storeInRange ∧ exec .tick s = .next t ∧ t.active = true :=
  ⟨⟨{ breathing with phase := 127, halt := .atOn }, _, rfl, breathing_inRange, rfl, rfl⟩,
    ⟨{ breathing with phase := 127 }, _, rfl, breathing_inRange, rfl, rfl⟩⟩

theorem witness_IndexSelectsItsPhases :
    (1 ≤ 1 ∧ 1 ≤ 256 ∧ (255#16).toNat < 256 * 1 ∧ waveIndex 255 1 = 127) ∧
    (1 ≤ 256 ∧ 256 ≤ 256 ∧ (65535#16).toNat < 256 * 256 ∧ waveIndex 65535 256 = 127 ∧ waveIndex 0 256 = 0) := by decide

theorem witness_UndeliveredTickLeavesNothing :
    idle.fault = .none ∧ idle.active = false ∧ ({ breathing with notify := false } : State).notify = false := by decide

/-- Just outside both ends of the period's range, and a level one above BL. -/
theorem witness_TickFaultsOnPeriodFirst :
    breathing.fault = .none ∧ breathing.active = true ∧ breathing.notify = true ∧
    ({ breathing with cfgPeriod := 0 } : State).cfgPeriod = 0 ∧ 256 < ({ breathing with cfgPeriod := 257 } : State).cfgPeriod ∧
    (let s : State := { breathing with cfgLevel := 4 }
     1 ≤ s.cfgPeriod ∧ s.cfgPeriod ≤ 256 ∧ s.bl.toNat < s.cfgLevel) := by decide

theorem witness_FrameDutyIsBounded :
    (3 : Half) ≤ breathing.bl ∧ breathing.scaleVariant = .doc ∧
    ({ breathing with scaleVariant := .upstreamX256 } : State).scaleVariant = .upstreamX256 := by decide

theorem witness_PhaseReturnsAfterAFullCycle :
    let s : State := { breathing with phase := 255, agenda := tickMoves (256 * breathing.cfgPeriod) [] }
    s.fault = .none ∧ s.active = true ∧ s.notify = true ∧ s.halt = .none ∧ s.storeInRange ∧
    s.phase.toNat < 256 * s.cfgPeriod ∧ s.agenda = tickMoves (256 * s.cfgPeriod) [] :=
  ⟨rfl, rfl, rfl, rfl, breathing_inRange, by decide, rfl⟩

theorem witness_DarkPulseHaltsOnTick128P :
    let s : State := { breathing with halt := .atOn, cfgLevel := 0, agenda := tickMoves (128 * breathing.cfgPeriod) [] }
    s.fault = .none ∧ s.active = true ∧ s.notify = true ∧ s.halt = .atOn ∧ s.phase = 0 ∧ s.cfgLevel = 0 ∧
    1 ≤ s.cfgPeriod ∧ s.cfgPeriod ≤ 256 ∧ s.agenda = tickMoves (128 * s.cfgPeriod) [] :=
  ⟨rfl, rfl, rfl, rfl, rfl, rfl, by decide, by decide, rfl⟩

/-- From an inactive block and from one that is breathing, with no tick between and with ticks at every point. -/
theorem witness_BrightPulseHaltsOnItsFirstTick : ∀ (b : Bool) (k : Nat),
    let s : State := { issuing (encode .pulseOnce) with
      active := b, notify := b, agenda := ticksBetween k k k [.event tickWord] }
    s.fault = .none ∧ s.seq = .idle ∧ s.init = true ∧ 1 ≤ s.cfgLevel ∧ s.storeInRange ∧
    s.commands = [encode .pulseOnce] ∧ s.agenda = ticksBetween k k k [.event tickWord] ∧ s.tickDeliverable = b :=
  fun b _ => ⟨rfl, rfl, rfl, (by decide : 1 ≤ 2), idle_inRange, rfl, rfl, by cases b <;> rfl⟩

theorem witness_TickLeavesAllChannelsAtOneDuty :
    ∃ s t : State, s.tickDeliverable = true ∧ exec .tick s = .next t ∧ t.fault = .none := ⟨breathing, _, rfl, rfl, rfl⟩

theorem witness_RaiseKeepsTheFirstFault : idle.fault = .none ∧ faulted.fault ≠ .none := by decide

theorem witness_FaultHasNoOtherEffect :
    ∃ s t : State, exec (.set 4) s = .next t ∧ t.fault ≠ .none := ⟨idle, _, rfl, by decide⟩

theorem witness_FaultedBlockWaitsForReset :
    faulted.fault ≠ .none ∧ ({ faulted with agenda := [.foreground] } : State).nextMove = .foreground ∧
    ({ faulted with agenda := [.event 9] } : State).nextMove = .event 9 ∧
    ({ faulted with agenda := [.powerOn] } : State).nextMove = .powerOn := by decide

theorem witness_AdmissionFaultsInOrder :
    idle.fault = .none ∧ idle.seq = .idle ∧ idle.init = true ∧ idle.bl < (4 : Half) ∧ State.reset.fault = .none ∧
    State.reset.seq = .idle ∧ State.reset.init = false ∧ (Instr.set 4).port = .command ∧ Instr.set 4 ≠ .initPorts ∧
    ∀ v, Instr.set 4 ≠ .map v := by
  refine ⟨by decide, by decide, by decide, by decide, rfl, rfl, rfl, rfl, by decide, nofun⟩

theorem witness_StoreReadsFaultOutOfRange :
    (∀ q ∈ ([.initPorts .readLevel, .pulseOnce .readLevel, .disable .readLevel, .reqSelfDisable] : List Seq),
      let s : State := { amid q with cfgLevel := 4 }
      s.fault = .none ∧ s.bl.toNat < s.cfgLevel ∧ s.seq = q) ∧
    ∀ p ∈ ([0, 257] : List Nat),
      let s : State := { amid (.pulseOnce .readLevel) with cfgLevel := 1, cfgPeriod := p }
      s.fault = .none ∧ s.seq = .pulseOnce .readLevel ∧ 1 ≤ s.cfgLevel ∧ s.cfgLevel ≤ s.bl.toNat ∧
      (s.cfgPeriod = 0 ∨ 256 < s.cfgPeriod) := by decide

theorem witness_DutiesKeptNeverFault : (issuing 0x00030002).fault = .none ∧ (issuing 0x00030002).dutiesKept := by
  refine ⟨rfl, idle_inRange, fun _ _ w h => ?_⟩
  cases h
  exact ⟨.set 3, by decide, by decide⟩

theorem witness_PowerOnResetsTheRegisters : ({ breathing with agenda := [.powerOn] } : State).nextMove = .powerOn := rfl

theorem witness_RegistersHaveOnlyTheirWriters :
    (∃ t, exec .enable { amid (.enable .phase) with phase := 9 } = .next t ∧ t.phase ≠ 9) ∧
    (∃ t, exec .reqSelfDisable (amid .reqSelfDisable) = .next t ∧ t.halt ≠ idle.halt) ∧
    (∃ t, exec .enable (amid (.enable .arm)) = .next t ∧ t.active ≠ idle.active ∧ t.notify ≠ idle.notify) ∧
    (∃ t, exec .initPorts State.reset = .next t ∧ t.init ≠ State.reset.init) ∧
    (∃ t, exec (.set 4) idle = .next t ∧ t.fault ≠ idle.fault ∧ t.faultInfo ≠ idle.faultInfo) ∧
    ∃ t, exec .tick { breathing with seq := .set (.disable 2), cfgPeriod := 0 } = .next t ∧ t.seq ≠ .set (.disable 2) :=
  ⟨⟨_, rfl, by decide⟩, ⟨_, rfl, by decide⟩, ⟨_, rfl, by decide, by decide⟩, ⟨_, rfl, by decide⟩,
    ⟨_, rfl, by decide, by decide⟩, ⟨_, rfl, by decide⟩⟩

theorem witness_InstructionsLeaveTheWorldAlone : ∃ s t : State, exec .tick s = .next t := ⟨breathing, _, rfl⟩

theorem witness_WaveformIsConstantAndOnlyTheTickReadsIt :
    (∃ s t : State, step s = .next t) ∧ (issuing 3).nextMove ≠ .event tickWord ∧ Instr.enable ≠ .tick ∧
    Memory.read [(0, 0)] (waveIndex (nextPhase breathing.phase breathing.cfgPeriod) breathing.cfgPeriod) =
      Memory.read breathing.rom (waveIndex (nextPhase breathing.phase breathing.cfgPeriod) breathing.cfgPeriod) :=
  ⟨⟨issuing 3, _, rfl⟩, by decide, by decide, by decide⟩

/-- An initialised block with no ROM cell listed, at a point of its foreground. -/
def sound (q : Seq) (h : HaltMode) : State :=
  { State.reset with init := true, bl := 3, halt := h, seq := q, agenda := [.foreground] }

/-- The same block breathing, as an arm leaves it. -/
def soundBreathing (q : Seq) (h : HaltMode) : State :=
  { sound q h with active := true, notify := true, out := [.stop, .start .tick, .enableNotify] }

theorem sound_inv (q : Seq) (h : HaltMode) (hq : q.Legal (sound q h)) : (sound q h).Inv where
  romCanonical := rfl
  waveLegal := waveLegal_unlisted
  blPositive := (by decide : 1 ≤ (3#16).toNat)
  notifyActive h := Bool.noConfusion h
  activeInit _ := rfl
  busyInit _ := rfl
  faultIdle h := absurd rfl h
  noFaultInfo _ := rfl
  seqLegal := hq
  hookMirrored := by simp [sound, State.reset, State.backend, Backend.run, Backend.initial]
  notifyMirrored := rfl

theorem soundBreathing_inv (q : Seq) (h : HaltMode) (hq : q.Legal (soundBreathing q h)) : (soundBreathing q h).Inv where
  romCanonical := rfl
  waveLegal := waveLegal_unlisted
  blPositive := (by decide : 1 ≤ (3#16).toNat)
  notifyActive _ := rfl
  activeInit _ := rfl
  busyInit _ := rfl
  faultIdle h := absurd rfl h
  noFaultInfo _ := rfl
  seqLegal := hq
  hookMirrored := by simp [soundBreathing, State.backend, Backend.run, Backend.initial, Backend.apply]
  notifyMirrored := rfl

/-- A block about to arm meets the invariant, and its step answers. -/
theorem witness_StepKeepsTheInvariant :
    ∃ s t : State, s.Inv ∧ step s = .next t ∧ t.active = true ∧ s.seq ≠ .idle :=
  ⟨sound (.enable .arm) .none, _, sound_inv _ _ rfl, rfl, rfl, by decide⟩

theorem witness_HiddenPhaseAndHaltAreUnobservable : idle.active = false ∧ idle.seq = .idle := by decide

theorem witness_TickLeavesTheForegroundWhereItWas :
    ∃ s t : State, exec .tick s = .next t ∧ t.fault = .none ∧ s.seq ≠ .idle :=
  ⟨{ breathing with seq := .set (.disable 2) }, _, rfl, rfl, by decide⟩

/-- Each row of the table, from a state that meets the invariant. -/
theorem witness_FsmStateMovesAsTheTableSays :
    (∃ s t : State, s.Inv ∧ completes .enable s t) ∧
    (∃ s t : State, s.Inv ∧ s.seq = .enable .phase ∧ exec .enable s = .next t) ∧
    (∃ s t : State, s.Inv ∧ completes .pulseOnce s t) ∧
    (∃ s t : State, s.Inv ∧ s.seq = .pulseOnce .readLevel ∧ exec .pulseOnce s = .next t ∧ t.fault = .none) ∧
    (∃ s t : State, s.Inv ∧ completes .disable s t) ∧
    (∃ s t : State, s.Inv ∧ s.active = true ∧ completes .reqSelfDisable s t) ∧
    (∃ s t : State, s.Inv ∧ s.active = true ∧ exec .isActive s = .next t) ∧
    (∃ s t : State, s.Inv ∧ s.seq = .initPorts .readBreathing ∧ completes .initPorts s t) ∧
    (∃ s t : State, s.Inv ∧ s.seq = .initPorts (.enable .arm) ∧ completes .initPorts s t) ∧
    (∃ s t : State, s.Inv ∧ s.breathing ≠ .inactive ∧ s.seq = .idle ∧ exec .initPorts s = .next t) ∧
    (∃ s t : State, s.Inv ∧ s.breathing = .inactive ∧ exec .tick s = .next t) ∧
    (∃ s t : State, s.Inv ∧ s.tickDeliverable = true ∧ exec .tick s = .next t ∧ t.fault = .none) ∧
    ∃ s t : State, s.Inv ∧ exec (.set 4) s = .next t ∧ t.fault ≠ .none :=
  ⟨⟨sound (.enable .arm) .none, _, sound_inv _ _ rfl, rfl, by decide, rfl, rfl⟩,
    ⟨sound (.enable .phase) .atOn, _, sound_inv _ _ trivial, rfl, rfl⟩,
    ⟨soundBreathing (.pulseOnce .arm) .atOn, _, soundBreathing_inv _ _ rfl, rfl, by decide, rfl, rfl⟩,
    ⟨sound (.pulseOnce .readLevel) .none, _, sound_inv _ _ trivial, rfl, rfl, rfl⟩,
    ⟨sound (.disable (.body (.enable 3))) .none, _, sound_inv _ _ ⟨rfl, by decide, by decide⟩, rfl, by decide, rfl, rfl⟩,
    ⟨soundBreathing .reqSelfDisable .none, _, soundBreathing_inv _ _ trivial, rfl, rfl, by decide, rfl, rfl⟩,
    ⟨soundBreathing .idle .none, _, soundBreathing_inv _ _ trivial, rfl, rfl⟩,
    ⟨sound (.initPorts .readBreathing) .none, _, sound_inv _ _ rfl, rfl, rfl, by decide, rfl, rfl⟩,
    ⟨sound (.initPorts (.enable .arm)) .none, _, sound_inv _ _ ⟨rfl, rfl, rfl⟩, rfl, rfl, by decide, rfl, rfl⟩,
    ⟨soundBreathing .idle .atOff, _, soundBreathing_inv _ _ trivial, by decide, rfl, rfl⟩,
    ⟨sound .idle .atOn, _, sound_inv _ _ trivial, rfl, rfl⟩,
    ⟨soundBreathing (.set (.disable 1)) .atOff, _, soundBreathing_inv _ _ trivial, rfl, rfl, rfl⟩,
    ⟨sound .idle .none, _, sound_inv _ _ trivial, rfl, by decide⟩⟩

end Sys2Proof.Tests
end

section
/-! PROOFS. The waveform ROM as a frame (10_state.md R32): each operation but the sample fetch answers the same whatever the
ROM holds, up to the ROM itself, which it passes on. Constancy is the case in which the ROM put in is the one there. -/

namespace Sys2Proof.Machine

/-- The same state with another ROM: no move of the machine, but the state `withRom` compares with. -/
def State.setRom (s : State) (m : Memory) : State := { s with rom := m }

variable {s : State} {m : Memory}

@[simp] theorem State.setRom_halt : (s.setRom m).halt = s.halt := rfl
@[simp] theorem State.setRom_seq : (s.setRom m).seq = s.seq := rfl
@[simp] theorem State.setRom_rom : (s.setRom m).rom = m := rfl
@[simp] theorem State.setRom_bl : (s.setRom m).bl = s.bl := rfl
@[simp] theorem State.setRom_cfgLevel : (s.setRom m).cfgLevel = s.cfgLevel := rfl
@[simp] theorem State.setRom_cfgPeriod : (s.setRom m).cfgPeriod = s.cfgPeriod := rfl
@[simp] theorem State.setRom_cfgBreathing : (s.setRom m).cfgBreathing = s.cfgBreathing := rfl
@[simp] theorem State.setRom_commands : (s.setRom m).commands = s.commands := rfl
@[simp] theorem State.setRom_agenda : (s.setRom m).agenda = s.agenda := rfl

@[simp] theorem State.setRom_goto (q : Seq) : (s.setRom m).goto q = (s.goto q).setRom m := rfl
@[simp] theorem State.setRom_finish (r : Word) : (s.setRom m).finish r = (s.finish r).setRom m := rfl
@[simp] theorem State.setRom_raise (c : FaultCode) (v : Word) : (s.setRom m).raise c v = (s.raise c v).setRom m := rfl
@[simp] theorem State.setRom_deactivate : (s.setRom m).deactivate = s.deactivate.setRom m := rfl

@[simp] theorem withRom_next : withRom m (.next s) = .next (s.setRom m) := rfl

/-! ## The shared operations pass the ROM on -/

theorem running_withRom {k : State → Result} (h : k (s.setRom m) = withRom m (k s)) :
    running (s.setRom m) k = withRom m (running s k) := by
  by_cases hf : s.fault = .none
  · rw [running_of hf, running_of (s := s.setRom m) hf, h]
  · rw [running_faulted hf, running_faulted (s := s.setRom m) hf]
    rfl

theorem admission_setRom (i : Instr) : admission i (s.setRom m) = admission i s := by
  cases i <;> rfl

theorem accept_withRom {i : Instr} {first : State → State}
    (h : first (s.setRom m) = (first s).setRom m) :
    accept i (s.setRom m) first = withRom m (accept i s first) := by
  unfold accept
  rw [admission_setRom, h]
  split <;> rfl

theorem withLevel_withRom {k k' : Half → Result} (h : ∀ level, k' level = withRom m (k level)) :
    withLevel (s.setRom m) k' = withRom m (withLevel s k) := by
  by_cases hl : s.bl.toNat < s.cfgLevel
  · simp [withLevel, hl]
  · simp [withLevel, hl, h]

theorem withPeriod_withRom {k k' : Nat → Result} (h : k' s.cfgPeriod = withRom m (k s.cfgPeriod)) :
    withPeriod (s.setRom m) k' = withRom m (withPeriod s k) := by
  by_cases hp : s.cfgPeriod = 0 ∨ 256 < s.cfgPeriod
  · simp [withPeriod, hp]
  · simp [withPeriod, hp, h]

theorem setBody_setRom (p : BodyPoint) (resume : BodyPoint → Seq) {done : State → State}
    (h : ∀ s : State, done (s.setRom m) = (done s).setRom m) :
    setBody p resume done (s.setRom m) = (setBody p resume done s).setRom m := by
  cases p with
  | disable c =>
    simp only [setBody]
    split
    · exact h (s.emit [.disableCh c])
    · rfl
  | enable level => exact h (s.emit (staticFrame s level))

theorem enableBody_setRom (p : EnablePoint) (resume : EnablePoint → Seq) :
    enableBody p resume (s.setRom m) = (enableBody p resume s).setRom m := by
  cases p <;> rfl

theorem pulseStart_withRom : pulseStart (s.setRom m) = withRom m (pulseStart s) :=
  withLevel_withRom fun level => by
    split
    · rfl
    · exact withPeriod_withRom rfl

/-! ## Every command passes the ROM on -/

theorem execSet_withRom (level : Half) : execSet level (s.setRom m) = withRom m (execSet level s) :=
  running_withRom <| by
    simp only [State.setRom_seq]
    cases s.seq with
    | idle => exact accept_withRom rfl
    | set p =>
      dsimp only
      split
      · exact congrArg _ (setBody_setRom p _ fun _ => rfl)
      · rfl
    | _ => rfl

theorem execEnable_withRom : execEnable (s.setRom m) = withRom m (execEnable s) :=
  running_withRom <| by
    simp only [State.setRom_seq]
    cases s.seq with
    | idle => exact accept_withRom rfl
    | enable p => exact congrArg _ (enableBody_setRom p _)
    | _ => rfl

theorem execPulseOnce_withRom : execPulseOnce (s.setRom m) = withRom m (execPulseOnce s) :=
  running_withRom <| by
    simp only [State.setRom_seq]
    cases s.seq with
    | idle => exact accept_withRom rfl
    | pulseOnce p =>
      cases p with
      | readLevel => exact pulseStart_withRom
      | halt => rfl
      | arm => rfl
    | _ => rfl

theorem execDisable_withRom : execDisable (s.setRom m) = withRom m (execDisable s) :=
  running_withRom <| by
    simp only [State.setRom_seq]
    cases s.seq with
    | idle => exact accept_withRom rfl
    | disable p =>
      cases p with
      | deactivate => rfl
      | readLevel => exact withLevel_withRom fun _ => rfl
      | body p => exact congrArg _ (setBody_setRom p _ fun _ => rfl)
    | _ => rfl

theorem execReqSelfDisable_withRom :
    execReqSelfDisable (s.setRom m) = withRom m (execReqSelfDisable s) :=
  running_withRom <| by
    simp only [State.setRom_seq]
    cases s.seq with
    | idle => exact accept_withRom rfl
    | reqSelfDisable => exact withLevel_withRom fun _ => rfl
    | _ => rfl

theorem execIsActive_withRom : execIsActive (s.setRom m) = withRom m (execIsActive s) :=
  running_withRom <| by
    simp only [State.setRom_seq]
    cases s.seq with
    | idle => exact accept_withRom rfl
    | _ => rfl

theorem execMap_withRom (v : Half) : execMap v (s.setRom m) = withRom m (execMap v s) :=
  running_withRom <| by
    simp only [State.setRom_seq]
    cases s.seq with
    | idle => exact accept_withRom rfl
    | _ => rfl

theorem execInitPorts_withRom : execInitPorts (s.setRom m) = withRom m (execInitPorts s) :=
  running_withRom <| by
    simp only [State.setRom_seq]
    cases s.seq with
    | idle => exact accept_withRom rfl
    | initPorts p =>
      cases p with
      | readLevel => exact withLevel_withRom fun _ => rfl
      | body p => exact congrArg _ (setBody_setRom p _ fun _ => rfl)
      | readBreathing => cases hb : s.cfgBreathing <;> simp [hb]
      | enable p => exact congrArg _ (enableBody_setRom p _)
    | _ => rfl

theorem exec_withRom {i : Instr} (hi : i ≠ .tick) : exec i (s.setRom m) = withRom m (exec i s) := by
  cases i with
  | initPorts => exact execInitPorts_withRom
  | set level => exact execSet_withRom level
  | enable => exact execEnable_withRom
  | pulseOnce => exact execPulseOnce_withRom
  | disable => exact execDisable_withRom
  | reqSelfDisable => exact execReqSelfDisable_withRom
  | isActive => exact execIsActive_withRom
  | map v => exact execMap_withRom v
  | tick => exact absurd rfl hi

/-! ## The tick reads one entry -/

/-- The index a tick fetches its sample at: that of its new phase (R172, R174). -/
def State.fetchIndex (s : State) : Index := waveIndex (nextPhase s.phase s.cfgPeriod) s.cfgPeriod

/-- The sample fetch is the one read of the ROM (R176). -/
theorem frameDuty_setRom {idx : Index} (h : Memory.read m idx = Memory.read s.rom idx) (level : Half) :
    frameDuty (s.setRom m) idx level = frameDuty s idx level :=
  congrArg (fun x => mapDuty (BitVec.ofNat 16 (scale s.scaleVariant s.bl x level))) h

theorem haltAt_setRom (idx : Index) : haltAt (s.setRom m) idx = (haltAt s idx).setRom m := by
  cases hh : haltHits s.halt idx <;> simp [haltAt, hh]

theorem tickFrame_setRom (h : Memory.read m s.fetchIndex = Memory.read s.rom s.fetchIndex) (level : Half) :
    tickFrame (s.setRom m) s.cfgPeriod level = (tickFrame s s.cfgPeriod level).setRom m := by
  show ((haltAt ((s.setPhase (nextPhase s.phase s.cfgPeriod)).setRom m) s.fetchIndex).emit
    (enableAll (frameDuty (s.setRom m) s.fetchIndex level))) = _
  rw [haltAt_setRom, frameDuty_setRom h]
  rfl

theorem execTick_withRom (h : Memory.read m s.fetchIndex = Memory.read s.rom s.fetchIndex) :
    execTick (s.setRom m) = withRom m (execTick s) := by
  have body : tickBody (s.setRom m) = withRom m (tickBody s) :=
    withPeriod_withRom (withLevel_withRom fun level => congrArg _ (tickFrame_setRom h level))
  refine running_withRom ?_
  show (if s.tickDeliverable then tickBody (s.setRom m) else _) = _
  split
  · exact body
  · rfl

/-! ## Every move passes the ROM on -/

/-- The command port carries commands only (R76). -/
theorem port_of_decodeCommand {w : Word} {i : Instr} (h : decodeCommand w = .instr i) : i.port = .command := by
  unfold decodeCommand at h
  split at h
  · cases h
  · split at h
    -- `SET` and `MAP` carry an operand, an unlisted code is rejected, every other command takes no operand (R73, R76).
    case h_2 | h_8 => cases h; rfl
    case h_9 => cases h
    all_goals
      obtain ⟨-, rfl⟩ := noOperand_instr.mp h
      rfl

/-- SEQ holds commands only (R21). -/
theorem port_of_seqInstr {q : Seq} {i : Instr} (h : q.instr = some i) : i.port = .command := by
  cases q <;> cases h <;> rfl

theorem ne_tick_of_command {i : Instr} (h : i.port = .command) : i ≠ .tick := by
  rintro rfl
  cases h

theorem acceptWord_withRom (w : Word) : acceptWord w (s.setRom m) = withRom m (acceptWord w s) := by
  unfold acceptWord
  cases hd : decodeCommand w with
  | instr i => exact exec_withRom (ne_tick_of_command (port_of_decodeCommand hd))
  | rejected e => rfl

theorem foreground_withRom : foreground (s.setRom m) = withRom m (foreground s) := by
  simp only [foreground, State.setRom_seq, State.setRom_commands]
  cases hi : s.seq.instr with
  | some i => exact exec_withRom (ne_tick_of_command (port_of_seqInstr hi))
  | none =>
    cases s.commands with
    | nil => rfl
    | cons w ws => exact acceptWord_withRom (s := s.takeCommand) w

theorem deliver_withRom {w : Word}
    (h : w = tickWord → Memory.read m s.fetchIndex = Memory.read s.rom s.fetchIndex) :
    deliver w (s.setRom m) = withRom m (deliver w s) := by
  unfold deliver decodeEvent
  split_ifs with hw
  · exact execTick_withRom (h hw)
  · rfl

theorem move_withRom {mv : Move}
    (h : mv = .event tickWord → Memory.read m s.fetchIndex = Memory.read s.rom s.fetchIndex) :
    move mv (s.setRom m) = withRom m (move mv s) := by
  cases mv with
  | foreground => exact running_withRom foreground_withRom
  | event w => exact running_withRom (deliver_withRom fun hw => h (congrArg _ hw))
  | drive w => rfl
  | store level period breathing => rfl
  | powerOn => rfl

theorem takeMove_setRom : (s.setRom m).takeMove = s.takeMove.setRom m := by
  simp only [State.takeMove, State.setRom_agenda]
  cases s.agenda <;> rfl

theorem takeMove_fetchIndex : s.takeMove.fetchIndex = s.fetchIndex := by
  simp [State.fetchIndex]

/-- A step does the same with any ROM, which it passes on; if it is a tick's, with any ROM that agrees at the index
fetched. -/
theorem step_withRom
    (h : s.nextMove = .event tickWord → Memory.read m s.fetchIndex = Memory.read s.rom s.fetchIndex) :
    step (s.setRom m) = withRom m (step s) := by
  show move s.nextMove (s.setRom m).takeMove = _
  rw [takeMove_setRom]
  exact move_withRom (by rwa [takeMove_fetchIndex, State.takeMove_rom])

/-- The ROM is constant: a step passes on whatever ROM is put in, so also the one there. -/
theorem step_rom {t : State} (h : step s = .next t) : t.rom = s.rom := by
  have pass : step s = withRom s.rom (step s) := step_withRom (m := s.rom) fun _ => rfl
  rw [h] at pass
  have ht : t = t.setRom s.rom := Host.Outcome.next.inj pass
  simpa using congrArg State.rom ht

/-- Settles O53: a step and an instruction pass on any ROM put in (`step_withRom`, `exec_withRom`), a tick any that agrees
at the index it fetches (`execTick_withRom`). -/
theorem waveformIsConstantAndOnlyTheTickReadsIt : Obligations.WaveformIsConstantAndOnlyTheTickReadsIt := by
  refine ⟨fun s t h idx => ?_, fun s m h => ?_, fun i s m hi => exec_withRom hi, fun s m h => execTick_withRom h⟩
  · rw [step_rom h]
  · exact step_withRom fun ht => absurd ht h

end Sys2Proof.Machine
end

section
/-! PROOFS. The mapper's two segments (40_lightness_mapper.md R103, R104): below the breakpoint a division; above it the
clamped cube of `y`. Both `y` and the cube grow with their argument, so each stays between its values at the segment's ends. -/

namespace Sys2Proof.Machine

theorem mapDuty_toNat_low {v : Half} (h : v.toNat ≤ 5243) : (mapDuty v).toNat = v.toNat / 9 := by
  rw [mapDuty_toNat, mapNat, if_pos h]

theorem mapDuty_toNat_high {v : Half} (h : 5243 < v.toNat) :
    (mapDuty v).toNat = min (mapCube (mapY v.toNat)) 65535 := by
  rw [mapDuty_toNat, mapNat, if_neg (by omega)]

theorem mapCube_mono {x y : Nat} (h : x ≤ y) : mapCube x ≤ mapCube y := by
  rw [mapCube_eq, mapCube_eq]
  exact Nat.div_le_div_right (Nat.mul_le_mul (Nat.mul_le_mul h h) h)

/-! ## The values at the ends of the high segment -/

theorem mapY_first : mapY 5244 = 52 := by decide
theorem mapY_last : mapY 65535 = 256 := by decide
theorem mapCube_first : mapCube 52 = 549 := by decide
theorem mapCube_last : mapCube 256 = 65536 := by decide

theorem mapY_bounds {v : Nat} (h1 : 5243 < v) (h2 : v ≤ 65535) : 52 ≤ mapY v ∧ mapY v ≤ 256 :=
  ⟨mapY_first ▸ mapY_mono h1, mapY_last ▸ mapY_mono h2⟩

theorem mapCube_bounds {y : Nat} (h1 : 52 ≤ y) (h2 : y ≤ 256) : 549 ≤ mapCube y ∧ mapCube y ≤ 65536 :=
  ⟨mapCube_first ▸ mapCube_mono h1, mapCube_last ▸ mapCube_mono h2⟩

/-- Settles O12: each segment by its equation, the bounds of `y` and the cube by monotonicity from the segment's ends. -/
theorem mapperFollowsTheAlgorithm : Obligations.MapperFollowsTheAlgorithm := by
  intro v
  refine ⟨mapDuty_toNat_low, fun h => ?_⟩
  have hv : v.toNat ≤ 65535 := by have := v.isLt; omega
  have ht1 : 4023808 ≤ (v.toNat + 10486) * 256 := by omega
  have ht2 : (v.toNat + 10486) * 256 ≤ 19461376 := by linarith
  obtain ⟨hy1, hy2⟩ := mapY_bounds h hv
  obtain ⟨hc1, hc2⟩ := mapCube_bounds hy1 hy2
  have hduty := mapDuty_toNat_high h
  rw [mapCube_eq] at hc1 hc2 hduty
  rw [mapY_eq] at hy1 hy2 hc1 hc2 hduty
  exact ⟨hduty, ht1, ht2, hy1, hy2, hc1, hc2⟩

/-- Settles O13: 0 and the breakpoint by the low segment's division; at full scale the cube is 65536, which is clamped. -/
theorem mapperEdgeValues : Obligations.MapperEdgeValues := by
  refine ⟨BitVec.eq_of_toNat_eq ?_, BitVec.eq_of_toNat_eq ?_, BitVec.eq_of_toNat_eq ?_⟩
  · exact mapDuty_toNat_low (v := 0) (by decide)
  · exact mapDuty_toNat_low (v := 5243) (by decide)
  · rw [mapDuty_toNat_high (by decide), show (65535 : Half).toNat = 65535 from rfl, mapY_last, mapCube_last]
    rfl

end Sys2Proof.Machine
end

section
/-! PROOFS. The precedence of the animation over the static setter (41_static_setter.md R123): `SET_BODY` emits nothing for a
level above 0 while ACTIVE is 1, and the three commands that run the body share that one micro-step. -/

namespace Sys2Proof.Machine

variable {s : State}

theorem staticFrame_active (ha : s.active = true) (L : Half) : staticFrame s L = [] := if_pos ha

theorem BodyPoint.first_of_ne_zero {L : Half} (hL : L ≠ 0) : BodyPoint.first L = .enable L := if_neg hL

/-- The enable step of the body keeps the stream of an active block, if what the command does next does. -/
theorem setBody_enable_out_active (ha : s.active = true) (L : Half) (resume : BodyPoint → Seq) {done : State → State}
    (hd : ∀ u : State, (done u).out = u.out) : (setBody (.enable L) resume done s).out = s.out := by
  calc (done (s.emit (staticFrame s L))).out
      _ = s.out ++ staticFrame s L := hd _
      _ = s.out := by rw [staticFrame_active ha, List.append_nil]

/-! ## The micro-steps of each command that are the body's -/

theorem execSet_accepted {L : Half} (hf : s.fault = .none) (hs : s.seq = .idle) (hi : s.init = true) (hL : L ≤ s.bl) :
    execSet L s = .next (s.goto (.set (BodyPoint.first L))) := by
  have admitted : admission (.set L) s = .none := by simp [admission, hi, hL]
  simp only [execSet, running_of hf, hs]
  exact accept_of _ admitted

theorem execSet_body {p : BodyPoint} (hf : s.fault = .none) (hs : s.seq = .set p) :
    execSet p.level s = .next (setBody p .set (fun s => s.finish 0) s) := by
  simp [execSet, running_of hf, hs]

theorem execDisable_body {p : BodyPoint} (hf : s.fault = .none) (hs : s.seq = .disable (.body p)) :
    execDisable s = .next (setBody p (fun p => .disable (.body p)) (fun s => s.finish 0) s) := by
  simp [execDisable, running_of hf, hs]

theorem execInitPorts_body {p : BodyPoint} (hf : s.fault = .none) (hs : s.seq = .initPorts (.body p)) :
    execInitPorts s =
      .next (setBody p (fun p => .initPorts (.body p)) (fun s => s.goto (.initPorts .readBreathing)) s) := by
  simp [execInitPorts, running_of hf, hs]

/-- Settles O19: acceptance goes to the enable step without reading ACTIVE (`execSet_accepted`); that step is the body's in
all three commands, and the body's emits nothing while active (`setBody_enable_out_active`). -/
theorem setNeverFightsTheAnimation : Obligations.SetNeverFightsTheAnimation := by
  intro s L hf hL
  refine ⟨fun hs hi hle => ?_, fun ha i h => ?_⟩
  · rw [← BodyPoint.first_of_ne_zero hL]
    exact execSet_accepted hf hs hi hle
  · obtain ⟨rfl, hs⟩ | ⟨rfl, hs⟩ | ⟨rfl, hs⟩ := h
    · exact ⟨_, execSet_body hf hs, setBody_enable_out_active ha L _ fun _ => rfl⟩
    · exact ⟨_, execDisable_body hf hs, setBody_enable_out_active ha L _ fun _ => rfl⟩
    · exact ⟨_, execInitPorts_body hf hs, setBody_enable_out_active ha L _ fun _ => rfl⟩

end Sys2Proof.Machine
end

section
/-! PROOFS. The phase accumulator (43_periodic_tick.md R172): a frame leaves the next phase, which at the largest period is
the phase plus one in 16 bits, and every duty among its commands is that of the next phase's index. -/

namespace Sys2Proof.Machine

variable {s : State}

/-- At the largest period the modulus is that of the register, so the counter runs freely. -/
theorem nextPhase_256 (phase : Half) : nextPhase phase 256 = phase + 1 :=
  BitVec.eq_of_toNat_eq <| by rw [nextPhase_toNat phase (by decide) le_rfl, BitVec.toNat_add]; rfl

theorem enableCh_mem_enableAll {c : Channel} {d e : Half} (h : .enableCh c d ∈ enableAll e) : d = e := by
  obtain ⟨_, -, he⟩ := List.mem_map.mp h
  exact (BackendCmd.enableCh.inj he).2.symm

theorem tickFrame_phase (period : Nat) (level : Half) :
    (tickFrame s period level).phase = nextPhase s.phase period := by
  obtain ⟨-, he⟩ | ⟨-, he⟩ := tickFrame_cases (s := s) period level <;> rw [he]

/-- The duties a frame emits, whether or not it halts: the deactivation before them drives no channel. -/
theorem tickFrame_emits (period : Nat) (level : Half) :
    ∃ cs, (tickFrame s period level).out = s.out ++ cs ∧ ∀ c d, .enableCh c d ∈ cs →
      d = frameDuty s (waveIndex (nextPhase s.phase period) period) level := by
  obtain ⟨-, he⟩ | ⟨-, he⟩ := tickFrame_cases (s := s) period level
  · refine ⟨_, congrArg State.out he, fun c d hm => ?_⟩
    obtain hm | hm := List.mem_append.mp hm
    · simp at hm
    · exact enableCh_mem_enableAll hm
  · exact ⟨_, congrArg State.out he, fun c d => enableCh_mem_enableAll⟩

/-- Settles O34: a delivered tick answers its frame (`execTick_of`), whose phase is `nextPhase` (`tickFrame_phase`) and whose
duties are those of its index (`tickFrame_emits`); the rest is `nextPhase` as a number. -/
theorem tickIsAModularCounter : Obligations.TickIsAModularCounter := by
  intro s hf ha hn hs
  refine ⟨_, execTick_of hf ha hn hs, ?_⟩
  obtain ⟨-, h1, h2⟩ := hs
  rw [tickFrame_phase]
  refine ⟨nextPhase_toNat _ h1 h2, nextPhase_lt _ h1 h2, fun hP => ?_, tickFrame_emits _ _⟩
  rw [hP, nextPhase_256]

end Sys2Proof.Machine
end

section
/-! PROOFS. The decoder and the encoder (30_encoding.md): a word is the encoding of an instruction exactly if its three
fields are that instruction's, and the command port reads an instruction from a word exactly if it is a command and
that word is its encoding. -/

namespace Sys2Proof

open Machine (decodeCommand_encode port_of_decodeCommand)

/-- The fields determine the word (R70). -/
theorem encode_eq_iff {w : Word} {i : Instr} :
    encode i = w ↔ rsvField w = 0 ∧ opcField w = opcode i ∧ immField w = operand i := by
  constructor
  · rintro rfl
    simp
  · rintro ⟨hr, ho, hi⟩
    apply BitVec.eq_of_toNat_eq
    rw [encode_toNat, word_toNat_of_fields w, hr, ho, hi]
    simp

theorem opcField_eq {w : Word} {k : BitVec 4} {n : Nat} (h : (opcField w).toNat = n) (hk : k.toNat = n) :
    opcField w = k :=
  BitVec.eq_of_toNat_eq (h.trans hk.symm)

/-- The fields of a word that decodes to a command (R72, R73, R76). -/
theorem fields_of_decodeCommand {w : Word} {i : Instr} (h : decodeCommand w = .instr i) :
    rsvField w = 0 ∧ opcField w = opcode i ∧ immField w = operand i := by
  unfold decodeCommand at h
  split at h
  case isTrue => cases h
  case isFalse hr =>
    refine ⟨not_not.mp hr, ?_⟩
    split at h
    -- `SET` and `MAP` carry the operand read; an unlisted code is rejected; the others' operand is the zero found.
    case h_2 ho | h_8 ho =>
      cases h
      exact ⟨opcField_eq ho rfl, rfl⟩
    case h_9 => cases h
    all_goals
      rename_i ho
      obtain ⟨hi, rfl⟩ := noOperand_instr.mp h
      exact ⟨opcField_eq ho rfl, hi⟩

theorem decodeCommand_eq_instr_iff {w : Word} {i : Instr} :
    decodeCommand w = .instr i ↔ i.port = .command ∧ encode i = w := by
  constructor
  · exact fun h => ⟨port_of_decodeCommand h, encode_eq_iff.mpr (fields_of_decodeCommand h)⟩
  · rintro ⟨hp, rfl⟩
    exact decodeCommand_encode hp

theorem decodeEvent_eq_instr_iff {w : Word} {i : Instr} :
    decodeEvent w = .instr i ↔ i.port = .event ∧ encode i = w := by
  have tick : encode .tick = tickWord := by decide
  constructor
  · intro h
    unfold decodeEvent at h
    split at h
    case isTrue hw =>
      cases h
      exact ⟨rfl, tick.trans hw.symm⟩
    case isFalse => cases h
  · rintro ⟨hp, rfl⟩
    cases i <;> cases hp
    exact if_pos tick

/-- Each port reads exactly the encodings of the instructions it carries. -/
theorem decode_eq_instr_iff {p : Port} {w : Word} {i : Instr} :
    decode p w = .instr i ↔ i.wellFormed p = true ∧ encode i = w := by
  rw [wellFormed_iff, eq_comm (a := p)]
  cases p with
  | command => exact decodeCommand_eq_instr_iff
  | event => exact decodeEvent_eq_instr_iff

/-- Settles O2: an instruction the port may carry is read from its own encoding (`decode_eq_instr_iff`). -/
theorem encodedInstructionDecodesToItself : Obligations.EncodedInstructionDecodesToItself :=
  fun _ _ h => decode_eq_instr_iff.mpr ⟨h, rfl⟩

/-- Settles O3: the other direction of `decode_eq_instr_iff`. -/
theorem decodedWordIsItsEncoding : Obligations.DecodedWordIsItsEncoding :=
  fun _ _ _ h => (decode_eq_instr_iff.mp h).symm

/-- An encoded command has `RSV = 0`, a listed `OPC`, and an operand only where it takes one (R71 to R73). -/
theorem encode_command_toNat {i : Instr} (h : i.port = .command) :
    (encode i).toNat / 16 % 4096 = 0 ∧ 1 ≤ (encode i).toNat % 16 ∧ (encode i).toNat % 16 ≤ 8 ∧
      ((encode i).toNat % 16 ≠ 2 → (encode i).toNat % 16 ≠ 8 → (encode i).toNat / 65536 = 0) := by
  rw [encode_toNat]
  cases i with
  | set level => simp [opcode, operand]; omega
  | map linear => simp [opcode, operand]; omega
  | tick => cases h
  | _ => simp [opcode, operand]

/-- A word with the fields of a command, read as numbers, decodes to it. -/
theorem decodeCommand_of_fields {w : Word} {i : Instr} (hp : i.port = .command) (hr : w.toNat / 16 % 4096 = 0)
    (ho : w.toNat % 16 = (opcode i).toNat) (hi : (operand i).toNat = w.toNat / 65536) : decodeCommand w = .instr i :=
  decodeCommand_eq_instr_iff.mpr ⟨hp, BitVec.eq_of_toNat_eq (by rw [encode_toNat]; omega)⟩

/-- Settles O5: from left to right the word is the encoding of a command (`encode_command_toNat`); from right to left
each operation code names its command (`decodeCommand_of_fields`). -/
theorem commandWordsAreExactlyTheUnreserved : Obligations.CommandWordsAreExactlyTheUnreserved := by
  intro w
  constructor
  · rintro ⟨i, h⟩
    obtain ⟨hp, rfl⟩ := decodeCommand_eq_instr_iff.mp h
    exact encode_command_toNat hp
  · rintro ⟨hr, h1, h8, hi⟩
    have plain {i : Instr} (hp : i.port = .command) (ho : w.toNat % 16 = (opcode i).toNat) (h0 : operand i = 0)
        (h2 : opcode i ≠ 2) (h8 : opcode i ≠ 8) : ∃ i, decode .command w = .instr i := by
      refine ⟨i, decodeCommand_of_fields hp hr ho ?_⟩
      rw [h0, hi (fun h => h2 (BitVec.eq_of_toNat_eq (ho.symm.trans h)))
        (fun h => h8 (BitVec.eq_of_toNat_eq (ho.symm.trans h)))]
      rfl
    obtain h | h | h | h | h | h | h | h : w.toNat % 16 = 1 ∨ w.toNat % 16 = 2 ∨ w.toNat % 16 = 3 ∨ w.toNat % 16 = 4 ∨
        w.toNat % 16 = 5 ∨ w.toNat % 16 = 6 ∨ w.toNat % 16 = 7 ∨ w.toNat % 16 = 8 := by omega
    · exact plain (i := .initPorts) rfl h rfl (by decide) (by decide)
    · exact ⟨.set (immField w), decodeCommand_of_fields rfl hr h (immField_toNat w)⟩
    · exact plain (i := .enable) rfl h rfl (by decide) (by decide)
    · exact plain (i := .pulseOnce) rfl h rfl (by decide) (by decide)
    · exact plain (i := .disable) rfl h rfl (by decide) (by decide)
    · exact plain (i := .reqSelfDisable) rfl h rfl (by decide) (by decide)
    · exact plain (i := .isActive) rfl h rfl (by decide) (by decide)
    · exact ⟨.map (immField w), decodeCommand_of_fields rfl hr h (immField_toNat w)⟩

/-- Settles O1: the five words are the encodings of their instructions, the other three carry a reserved field. -/
theorem specWordsDecode : Obligations.SpecWordsDecode := by
  refine ⟨?_, ?_, ?_, ?_, ?_, rfl, rfl, rfl⟩ <;> exact decode_eq_instr_iff.mpr ⟨rfl, by decide⟩

/-- Settles O4: the four bytes put together again are the word's four byte fields in their places (`append_toNat`). -/
theorem serialisedWordIsReadBack : Obligations.SerialisedWordIsReadBack := by
  refine fun w => ⟨congrArg some (BitVec.eq_of_toNat_eq ?_), rfl, rfl⟩
  have := w.isLt
  simp only [append_toNat, BitVec.extractLsb'_toNat, Nat.shiftRight_eq_div_pow]
  omega

end Sys2Proof
end

section
/-! PROOFS. The frame of every instruction (20_memory.md R50, 10_state.md R33): each operation on the state leaves the
ROM, the parameters, the inputs and the outside world's lists, and the two streams grow at their end. -/

namespace Sys2Proof.Machine

/-- `t` has the world of `s`, and the streams of `s` begin those of `t`. -/
structure SameWorld (s t : State) : Prop where
  rom : t.rom = s.rom := by rfl
  bl : t.bl = s.bl := by rfl
  scaleVariant : t.scaleVariant = s.scaleVariant := by rfl
  cfgLevel : t.cfgLevel = s.cfgLevel := by rfl
  cfgPeriod : t.cfgPeriod = s.cfgPeriod := by rfl
  cfgBreathing : t.cfgBreathing = s.cfgBreathing := by rfl
  commands : t.commands = s.commands := by rfl
  agenda : t.agenda = s.agenda := by rfl
  moves : t.moves = s.moves := by rfl
  out : s.out <+: t.out := by exact List.prefix_rfl
  responses : s.responses <+: t.responses := by exact List.prefix_rfl

namespace SameWorld

variable {s t u : State}

theorem trans (h : SameWorld s t) (k : SameWorld t u) : SameWorld s u where
  rom := k.rom.trans h.rom
  bl := k.bl.trans h.bl
  scaleVariant := k.scaleVariant.trans h.scaleVariant
  cfgLevel := k.cfgLevel.trans h.cfgLevel
  cfgPeriod := k.cfgPeriod.trans h.cfgPeriod
  cfgBreathing := k.cfgBreathing.trans h.cfgBreathing
  commands := k.commands.trans h.commands
  agenda := k.agenda.trans h.agenda
  moves := k.moves.trans h.moves
  out := h.out.trans k.out
  responses := h.responses.trans k.responses

theorem refl (s : State) : SameWorld s s := {}
theorem setPhase (v : Half) : SameWorld s (s.setPhase v) := {}
theorem setHalt (h : HaltMode) : SameWorld s (s.setHalt h) := {}
theorem goto (q : Seq) : SameWorld s (s.goto q) := {}
theorem raise (c : FaultCode) (v : Word) : SameWorld s (s.raise c v) := {}
theorem emit (cs : List BackendCmd) : SameWorld s (s.emit cs) := { out := List.prefix_append _ _ }
theorem arm : SameWorld s s.arm := { out := List.prefix_append _ _ }
theorem deactivate : SameWorld s s.deactivate := { out := List.prefix_append _ _ }
theorem startUp : SameWorld s s.startUp := { out := List.prefix_append _ _ }
theorem finish (r : Word) : SameWorld s (s.finish r) := { responses := List.prefix_append _ _ }

theorem setBody (p : BodyPoint) (resume : BodyPoint → Seq) {done : State → State} (hd : ∀ u, SameWorld u (done u)) :
    SameWorld s (setBody p resume done s) := by
  obtain ⟨_, -, -, h⟩ | ⟨-, h⟩ | ⟨_, -, h⟩ := setBody_cases (s := s) p resume done <;> rw [h]
  · exact (emit _).trans (goto _)
  · exact (emit _).trans (hd _)
  · exact (emit _).trans (hd _)

theorem enableBody (p : EnablePoint) (resume : EnablePoint → Seq) : SameWorld s (enableBody p resume s) := by
  cases p with
  | phase => exact (setPhase _).trans (goto _)
  | halt => exact (setHalt _).trans (goto _)
  | arm => exact arm.trans (finish _)

theorem tickFrame (period : Nat) (level : Half) : SameWorld s (tickFrame s period level) := by
  obtain ⟨-, h⟩ | ⟨-, h⟩ := tickFrame_cases (s := s) period level <;> rw [h]
  · exact { out := List.prefix_append _ _ }
  · exact { out := List.prefix_append _ _ }

end SameWorld

variable {s t : State} {i : Instr}

theorem Effect.sameWorld (e : Effect s i t) : SameWorld s t := by
  cases e with
  | raised => exact .raise _ _
  | undelivered => exact .refl _
  | frame => exact .tickFrame _ _
  | mapped | answered | initEnds => exact .finish _
  | setAccepted | enableAccepted | pulseAccepted | disableAccepted | reqAccepted | disableLevel | initLevel | initBreathes =>
    exact .goto _
  | setBody | disableBody => exact .setBody _ _ fun _ => .finish _
  | initBody => exact .setBody _ _ fun _ => .goto _
  | enableBody | initEnable => exact .enableBody _ _
  | pulseOff | pulseOn => exact (SameWorld.setPhase _).trans (.goto _)
  | pulseHalt => exact (SameWorld.setHalt _).trans (.goto _)
  | pulseArm => exact SameWorld.arm.trans (.finish _)
  | disableDeactivate => exact SameWorld.deactivate.trans (.goto _)
  | reqHalt => exact (SameWorld.setHalt _).trans (.finish _)
  | started => exact SameWorld.startUp.trans (.goto _)

/-- Settles O52: every effect has the frame of the operations it is made of (`Effect.sameWorld`). -/
theorem instructionsLeaveTheWorldAlone : Obligations.InstructionsLeaveTheWorldAlone := by
  intro i s t h
  have w := (exec_effect h).2.sameWorld
  obtain ⟨cs, hcs⟩ := w.out
  obtain ⟨rs, hrs⟩ := w.responses
  exact ⟨fun idx => by rw [w.rom], w.bl, w.scaleVariant, w.cfgLevel, w.cfgPeriod, w.cfgBreathing, w.commands, w.agenda,
    w.moves, ⟨cs, hcs.symm⟩, rs, hrs.symm⟩

end Sys2Proof.Machine
end

section
/-! PROOFS. The reference backend's hook and notification (92_eei_decisions.md D24): commands that only drive channels
leave both, the three backend sequences set them. -/

namespace Sys2Proof.Machine

/-- A command to one channel. -/
def BackendCmd.drivesChannel : BackendCmd → Bool
  | .enableCh _ _ => true
  | .disableCh _ => true
  | .stop => false
  | .start _ => false
  | .enableNotify => false

theorem Backend.run_append (cs ds : List BackendCmd) :
    Backend.run (cs ++ ds) = ds.foldl Backend.apply (Backend.run cs) := List.foldl_append

theorem Backend.foldl_drivesChannel {cs : List BackendCmd} (h : ∀ c ∈ cs, c.drivesChannel = true) (b : Backend) :
    (cs.foldl Backend.apply b).hook = b.hook ∧ (cs.foldl Backend.apply b).notifying = b.notifying := by
  induction cs generalizing b with
  | nil => exact ⟨rfl, rfl⟩
  | cons c cs ih =>
    obtain ⟨hhook, hnotify⟩ := ih (fun c hc => h c (List.mem_cons_of_mem _ hc)) (b.apply c)
    rw [List.foldl_cons, hhook, hnotify]
    have hc := h c List.mem_cons_self
    cases c with
    | enableCh | disableCh => exact ⟨rfl, rfl⟩
    | stop | start | enableNotify => cases hc

theorem enableAll_drivesChannel (d : Half) : ∀ c ∈ enableAll d, c.drivesChannel = true := by
  intro c hc
  obtain ⟨_, -, rfl⟩ := List.mem_map.mp hc
  rfl

theorem staticFrame_drivesChannel (s : State) (L : Half) : ∀ c ∈ staticFrame s L, c.drivesChannel = true := by
  unfold staticFrame
  split
  · exact fun c hc => absurd hc List.not_mem_nil
  · exact enableAll_drivesChannel _

variable {s t : State}

theorem State.backend_of_out {cs : List BackendCmd} (h : t.out = s.out ++ cs) :
    t.backend = cs.foldl Backend.apply s.backend := by
  rw [State.backend, h, Backend.run_append]
  rfl

end Sys2Proof.Machine
end

section
/-! PROOFS. The invariant (10_state.md R24, R25, R29; 42_breathing_fsm.md R140): each operation on the state keeps it,
under what the operation needs of the point the command stands at; every effect is made of such operations. -/

namespace Sys2Proof.Machine

variable {s t : State} {i : Instr}

/-! ## The points of a command -/

theorem BodyPoint.first_legal {L bl : Half} (h : L ≤ bl) : (BodyPoint.first L).Legal bl := by
  unfold BodyPoint.first
  split
  case isTrue => trivial
  case isFalse h0 => exact ⟨h0, h⟩

/-- What a point asks for it keeps when the block is deactivated. -/
theorem Seq.Legal.deactivate {q : Seq} (h : q.Legal s) : q.Legal s.deactivate := by
  cases q with
  | initPorts p =>
    cases p with
    | enable p =>
      cases p with
      | phase => rfl
      | halt => exact ⟨rfl, h.2⟩
      | arm => exact ⟨rfl, h.2⟩
    | body p => exact ⟨rfl, h.2⟩
    | _ => rfl
  | enable p => cases p <;> exact h
  | pulseOnce p => cases p <;> exact h
  | disable p =>
    cases p with
    | deactivate => trivial
    | readLevel => rfl
    | body p => exact ⟨rfl, h.2⟩
  | _ => exact h

/-- The points that ask for a phase ask for an inactive block, so a tick's new phase does not disturb them. -/
theorem Seq.Legal.setPhase_of_active {q : Seq} (h : q.Legal s) (ha : s.active = true) (v : Half) :
    q.Legal (s.setPhase v) := by
  have active_ne : s.active ≠ false := by simp [ha]
  cases q with
  | initPorts p =>
    cases p with
    | enable p =>
      cases p with
      | phase => exact absurd h active_ne
      | halt => exact absurd h.1 active_ne
      | arm => exact absurd h.1 active_ne
    | _ => exact h
  | enable p => cases p <;> exact h
  | pulseOnce p => cases p <;> exact h
  | disable p => cases p <;> exact h
  | _ => exact h

/-! ## Every operation keeps the invariant -/

namespace State.Inv

/-- The invariant says nothing of the inputs and of the outside world's lists. -/
theorem withWorld (h : s.Inv) (level period : Nat) (breathing : Bool) (ws : List Word) (ms : List Move) (n : Nat) :
    ({ s with
      cfgLevel := level, cfgPeriod := period, cfgBreathing := breathing
      commands := ws, agenda := ms, moves := n } : State).Inv :=
  ⟨h.romCanonical, h.waveLegal, h.blPositive, h.notifyActive, h.activeInit, h.busyInit, h.faultIdle, h.noFaultInfo,
    h.seqLegal, h.hookMirrored, h.notifyMirrored⟩

theorem takeMove (h : s.Inv) : s.takeMove.Inv := by
  unfold State.takeMove
  split
  · exact h.withWorld _ _ _ _ _ _
  · exact h.withWorld _ _ _ _ _ _

theorem takeCommand (h : s.Inv) : s.takeCommand.Inv := h.withWorld _ _ _ _ _ _

theorem drive (h : s.Inv) (w : Word) : (s.drive w).Inv := h.withWorld _ _ _ _ _ _

theorem storeInputs (h : s.Inv) (l p : Nat) (b : Bool) : (s.storeInputs l p b).Inv := h.withWorld _ _ _ _ _ _

theorem powerOn (hr : Memory.wf s.rom = true) (hw : WaveLegal s.rom) (hb : 1 ≤ s.bl.toNat) : s.powerOn.Inv where
  romCanonical := hr
  waveLegal := hw
  blPositive := hb
  notifyActive h := Bool.noConfusion h
  activeInit h := Bool.noConfusion h
  busyInit h := absurd rfl h
  faultIdle h := absurd rfl h
  noFaultInfo _ := rfl
  seqLegal := trivial
  hookMirrored := ⟨Hook.noConfusion, Bool.noConfusion⟩
  notifyMirrored := rfl

theorem raise (h : s.Inv) {c : FaultCode} (hc : c ≠ .none) (v : Word) : (s.raise c v).Inv :=
  { h with
    busyInit := fun k => absurd rfl k
    faultIdle := fun _ => rfl
    noFaultInfo := fun k => by
      rw [State.raise_fault] at k
      split at k
      · exact absurd k hc
      · exact absurd k ‹_›
    seqLegal := trivial }

theorem goto (h : s.Inv) {q : Seq} (hi : s.init = true) (hf : s.fault = .none) (hq : q.Legal s) : (s.goto q).Inv :=
  { h with
    busyInit := fun _ => hi
    faultIdle := fun k => absurd hf k
    seqLegal := show q.Legal (s.goto q) from hq }

theorem finish (h : s.Inv) (r : Word) : (s.finish r).Inv :=
  { h with
    busyInit := fun k => absurd rfl k
    faultIdle := fun _ => rfl
    seqLegal := trivial }

theorem setPhase (h : s.Inv) {v : Half} (hq : s.seq.Legal (s.setPhase v)) : (s.setPhase v).Inv :=
  { h with seqLegal := hq }

theorem setHalt (h : s.Inv) {m : HaltMode} (hq : s.seq.Legal (s.setHalt m)) : (s.setHalt m).Inv :=
  { h with seqLegal := hq }

theorem emit (h : s.Inv) {cs : List BackendCmd} (hcs : ∀ c ∈ cs, c.drivesChannel = true) : (s.emit cs).Inv := by
  obtain ⟨hhook, hnotify⟩ := Backend.foldl_drivesChannel hcs s.backend
  have hb : (s.emit cs).backend = cs.foldl Backend.apply s.backend := State.backend_of_out rfl
  exact { h with
    seqLegal := h.seqLegal
    hookMirrored := by rw [hb, hhook]; exact h.hookMirrored
    notifyMirrored := by rw [hb, hnotify]; exact h.notifyMirrored }

theorem deactivate (h : s.Inv) : s.deactivate.Inv := by
  have hb : s.deactivate.backend = [.stop, .start .null].foldl Backend.apply s.backend := State.backend_of_out rfl
  exact { h with
    notifyActive := fun k => Bool.noConfusion k
    activeInit := fun k => Bool.noConfusion k
    seqLegal := h.seqLegal.deactivate
    hookMirrored := by rw [hb]; exact ⟨Hook.noConfusion, Bool.noConfusion⟩
    notifyMirrored := by rw [hb]; rfl }

/-- The arm ends its command, so its point need not be legal for the active block. -/
theorem armFinish (h : s.Inv) (hi : s.init = true) (r : Word) : (s.arm.finish r).Inv := by
  have hb : (s.arm.finish r).backend = [.stop, .start .tick, .enableNotify].foldl Backend.apply s.backend :=
    State.backend_of_out rfl
  exact { h with
    notifyActive := fun _ => rfl
    activeInit := fun _ => hi
    busyInit := fun k => absurd rfl k
    faultIdle := fun _ => rfl
    seqLegal := trivial
    hookMirrored := by rw [hb]; exact ⟨fun _ => rfl, fun _ => rfl⟩
    notifyMirrored := by rw [hb]; rfl }

/-- Before `INIT_PORTS` the block is inactive, so its backend does not notify. -/
theorem startUp (h : s.Inv) (hi : s.init = false) (hs : s.seq = .idle) : s.startUp.Inv := by
  have hb : s.startUp.backend = [.start .null].foldl Backend.apply s.backend := State.backend_of_out rfl
  have inactive : s.active ≠ true := fun ha => by simp [h.activeInit ha] at hi
  have silent : s.notify = false := Bool.eq_false_of_not_eq_true fun hn => inactive (h.notifyActive hn)
  exact { h with
    notifyActive := fun k => Bool.noConfusion k
    activeInit := fun k => Bool.noConfusion k
    busyInit := fun _ => rfl
    seqLegal := by rw [State.startUp_seq, hs]; trivial
    hookMirrored := by rw [hb]; exact ⟨Hook.noConfusion, Bool.noConfusion⟩
    notifyMirrored := by rw [hb]; exact h.notifyMirrored.trans silent }

theorem setBody (h : s.Inv) {p : BodyPoint} {resume : BodyPoint → Seq} {done : State → State} (hi : s.init = true)
    (hf : s.fault = .none) (hr : ∀ c, (resume (.disable c)).Legal s)
    (hd : ∀ u : State, u.Inv → u.init = true → u.fault = .none → u.active = s.active → (done u).Inv) :
    (setBody p resume done s).Inv := by
  obtain ⟨c, -, -, e⟩ | ⟨-, e⟩ | ⟨L, -, e⟩ := setBody_cases (s := s) p resume done <;> rw [e]
  · exact (h.emit (by simp [BackendCmd.drivesChannel])).goto hi hf (hr _)
  · exact hd _ (h.emit (by simp [BackendCmd.drivesChannel])) hi hf rfl
  · exact hd _ (h.emit (staticFrame_drivesChannel s L)) hi hf rfl

theorem tickFrame (h : s.Inv) (ha : s.active = true) (period : Nat) (level : Half) :
    (tickFrame s period level).Inv := by
  have moved : (s.setPhase (nextPhase s.phase period)).Inv := h.setPhase (h.seqLegal.setPhase_of_active ha _)
  have halted : (haltAt (s.setPhase (nextPhase s.phase period)) (waveIndex (nextPhase s.phase period) period)).Inv := by
    obtain ⟨-, e⟩ | ⟨-, e⟩ := haltAt_cases (s := s.setPhase (nextPhase s.phase period))
      (waveIndex (nextPhase s.phase period) period) <;> rw [e]
    · exact moved.deactivate
    · exact moved
  exact halted.emit (enableAll_drivesChannel _)

theorem legal_at (h : s.Inv) {q : Seq} (hs : s.seq = q) : q.Legal s := hs ▸ h.seqLegal

theorem init_at (h : s.Inv) {q : Seq} (hs : s.seq = q) (hq : q ≠ .idle) : s.init = true :=
  h.busyInit fun h0 => hq (hs.symm.trans h0)

end State.Inv

/-! ## Every effect keeps the invariant -/

theorem Effect.keeps_inv (e : Effect s i t) (h : s.Inv) (hf : s.fault = .none) : t.Inv := by
  cases e with
  | raised _ _ v hc => exact h.raise hc v
  | undelivered => exact h
  | frame hd =>
    have ha : s.active = true := by simp_all [State.tickDeliverable]
    exact h.tickFrame ha _ _
  | mapped | answered | initEnds => exact h.finish _
  | setAccepted L _ hi hL => exact h.goto hi hf (BodyPoint.first_legal hL)
  | setBody p hs => exact h.setBody (h.init_at hs nofun) hf (fun _ => trivial) fun _ hu _ _ _ => hu.finish 0
  | enableAccepted _ hi | pulseAccepted _ hi | disableAccepted _ hi | reqAccepted _ hi => exact h.goto hi hf trivial
  | enableBody p hs =>
    have hi := h.init_at hs nofun
    cases p with
    | phase => exact (h.setPhase (by rw [hs]; trivial)).goto hi hf trivial
    | halt => exact (h.setHalt (by rw [hs]; trivial)).goto hi hf rfl
    | arm => exact h.armFinish hi 0
  | pulseOff hs | pulseOn hs => exact (h.setPhase (by rw [hs]; trivial)).goto (h.init_at hs nofun) hf trivial
  | pulseHalt hs => exact (h.setHalt (by rw [hs]; trivial)).goto (h.init_at hs nofun) hf rfl
  | pulseArm hs => exact h.armFinish (h.init_at hs nofun) 0
  | disableDeactivate hs => exact h.deactivate.goto (h.init_at hs nofun) hf rfl
  | disableLevel hs hl => exact h.goto (h.init_at hs nofun) hf ⟨h.legal_at hs, BodyPoint.first_legal (level_le hl)⟩
  | disableBody p hs =>
    have inactive := (h.legal_at hs).1
    exact h.setBody (h.init_at hs nofun) hf (fun _ => ⟨inactive, trivial⟩) fun _ hu _ _ _ => hu.finish 0
  | reqHalt hs => exact (h.setHalt (by rw [hs]; trivial)).finish 0
  | started hs hi => exact (h.startUp hi hs).goto rfl hf rfl
  | initLevel hs hl => exact h.goto (h.init_at hs nofun) hf ⟨h.legal_at hs, BodyPoint.first_legal (level_le hl)⟩
  | initBody p hs =>
    have inactive := (h.legal_at hs).1
    exact h.setBody (h.init_at hs nofun) hf (fun _ => ⟨inactive, trivial⟩)
      fun _ hu hi hf ha => hu.goto hi hf (ha.trans inactive)
  | initBreathes hs =>
    have inactive : s.active = false := h.legal_at hs
    exact h.goto (h.init_at hs nofun) hf inactive
  | initEnable p hs =>
    have hi := h.init_at hs nofun
    have legal := h.legal_at hs
    cases p with
    | phase => exact (h.setPhase (by rw [hs]; exact legal)).goto hi hf ⟨legal, rfl⟩
    | halt => exact (h.setHalt (by rw [hs]; exact legal)).goto hi hf ⟨legal.1, legal.2, rfl⟩
    | arm => exact h.armFinish hi 0

theorem exec_keeps_inv (h : s.Inv) (he : exec i s = .next t) : t.Inv :=
  (exec_effect he).2.keeps_inv h (exec_effect he).1

/-- Settles O54: the reset state is a power-on of itself, with the ROM that lists nothing. -/
theorem resetMeetsTheInvariant : Obligations.ResetMeetsTheInvariant :=
  State.Inv.powerOn (s := State.reset) reset_rom_wf waveLegal_unlisted bl_pos

/-- Settles O55: every move is one of the outside world's, which keep the registers or reset them, or runs an
instruction, whose every effect keeps the invariant (`Effect.keeps_inv`). -/
theorem stepKeepsTheInvariant : Obligations.StepKeepsTheInvariant := by
  intro s t h hstep
  have hm := h.takeMove
  obtain ⟨w, -, rfl⟩ | ⟨l, p, b, -, rfl⟩ | ⟨-, rfl⟩ | ⟨w, -, -, -, rfl⟩ | ⟨-, -, he⟩ | ⟨-, -, -, -, rfl⟩ |
    ⟨w, ws, -, -, -, -, -, rfl⟩ | ⟨w, ws, i, -, -, -, -, -, he⟩ | ⟨i, -, -, -, he⟩ := step_next hstep
  · exact hm.drive w
  · exact hm.storeInputs l p b
  · exact .powerOn hm.romCanonical hm.waveLegal hm.blPositive
  · exact hm
  · exact exec_keeps_inv hm he
  · exact hm
  · exact hm.takeCommand.raise (by decide) w
  · exact exec_keeps_inv hm.takeCommand he
  · exact exec_keeps_inv hm he

end Sys2Proof.Machine
end

section
/-! PROOFS. What an effect leaves (60_exceptions.md R200, 42_breathing_fsm.md R140): a raise changes FAULT, FAULT_INFO
and SEQ alone, every other effect keeps the fault, and each register has its few writers. -/

namespace Sys2Proof.Machine

variable {s t : State} {i : Instr}

/-- What emission, a move of SEQ and the command's own end keep, `SET_BODY` keeps. -/
theorem setBody_keeps {α : Type} (f : State → α) {p : BodyPoint} {resume : BodyPoint → Seq} {done : State → State}
    (he : ∀ u cs, f (State.emit u cs) = f u) (hg : ∀ u q, f (State.goto u q) = f u) (hd : ∀ u, f (done u) = f u) :
    f (setBody p resume done s) = f s := by
  obtain ⟨_, -, -, e⟩ | ⟨-, e⟩ | ⟨_, -, e⟩ := setBody_cases (s := s) p resume done <;> rw [e]
  · rw [hg, he]
  · rw [hd, he]
  · rw [hd, he]

theorem tickFrame_keeps {α : Type} (f : State → α) {period : Nat} {level : Half} (hp : ∀ u v, f (State.setPhase u v) = f u)
    (he : ∀ u cs, f (State.emit u cs) = f u) (hd : ∀ u, f (State.deactivate u) = f u) :
    f (tickFrame s period level) = f s := by
  show f ((haltAt (s.setPhase _) _).emit _) = f s
  obtain ⟨-, e⟩ | ⟨-, e⟩ := haltAt_cases (s := s.setPhase (nextPhase s.phase period))
    (waveIndex (nextPhase s.phase period) period) <;> rw [e, he]
  · rw [hd, hp]
  · rw [hp]

@[simp] theorem tickFrame_halt (P : Nat) (L : Half) : (tickFrame s P L).halt = s.halt :=
  tickFrame_keeps State.halt (fun _ _ => rfl) (fun _ _ => rfl) fun _ => rfl

@[simp] theorem tickFrame_init (P : Nat) (L : Half) : (tickFrame s P L).init = s.init :=
  tickFrame_keeps State.init (fun _ _ => rfl) (fun _ _ => rfl) fun _ => rfl

@[simp] theorem tickFrame_fault (P : Nat) (L : Half) : (tickFrame s P L).fault = s.fault :=
  tickFrame_keeps State.fault (fun _ _ => rfl) (fun _ _ => rfl) fun _ => rfl

@[simp] theorem tickFrame_faultInfo (P : Nat) (L : Half) : (tickFrame s P L).faultInfo = s.faultInfo :=
  tickFrame_keeps State.faultInfo (fun _ _ => rfl) (fun _ _ => rfl) fun _ => rfl

@[simp] theorem tickFrame_seq (P : Nat) (L : Half) : (tickFrame s P L).seq = s.seq :=
  tickFrame_keeps State.seq (fun _ _ => rfl) (fun _ _ => rfl) fun _ => rfl

@[simp] theorem tickFrame_responses (P : Nat) (L : Half) : (tickFrame s P L).responses = s.responses :=
  tickFrame_keeps State.responses (fun _ _ => rfl) (fun _ _ => rfl) fun _ => rfl

/-- SEQ aside, a raise from a state without a fault writes the fault it names. -/
theorem raise_of_no_fault (hf : s.fault = .none) (c : FaultCode) (v : Word) :
    s.raise c v = { s with fault := c, faultInfo := v, seq := .idle } := by
  simp [State.raise, hf]

/-! ## The fault -/

/-- An effect is a raise, with its reason, or it keeps the fault. -/
theorem Effect.raised_or_keeps_fault (e : Effect s i t) :
    (∃ c v, c ≠ .none ∧ t = s.raise c v ∧ (¬ s.storeInRange ∨ (s.seq = .idle ∧ admission i s ≠ .none))) ∨
    (t.fault = s.fault ∧ t.faultInfo = s.faultInfo) := by
  cases e with
  | raised _ c v hc why => exact .inl ⟨c, v, hc, rfl, why⟩
  | frame => exact .inr ⟨tickFrame_fault _ _, tickFrame_faultInfo _ _⟩
  | setBody | disableBody | initBody =>
    exact .inr ⟨setBody_keeps State.fault (fun _ _ => rfl) (fun _ _ => rfl) fun _ => rfl,
      setBody_keeps State.faultInfo (fun _ _ => rfl) (fun _ _ => rfl) fun _ => rfl⟩
  | enableBody p | initEnable p => cases p <;> exact .inr ⟨rfl, rfl⟩
  | _ => exact .inr ⟨rfl, rfl⟩

/-- An instruction that answers a fault has raised it. -/
theorem exec_raised (h : exec i s = .next t) (ht : t.fault ≠ .none) :
    ∃ c v, c ≠ .none ∧ t = s.raise c v ∧ (¬ s.storeInRange ∨ (s.seq = .idle ∧ admission i s ≠ .none)) := by
  obtain ⟨hf, e⟩ := exec_effect h
  obtain h | ⟨hk, -⟩ := e.raised_or_keeps_fault
  · exact h
  · exact absurd (hk.trans hf) ht

/-- Settles O45: such an instruction has raised (`exec_raised`), from a state without a fault. -/
theorem faultHasNoOtherEffect : Obligations.FaultHasNoOtherEffect := by
  intro i s t h ht
  have hf := (exec_effect h).1
  obtain ⟨c, v, -, rfl, -⟩ := exec_raised h ht
  rw [raise_of_no_fault hf]
  exact ⟨rfl, hf⟩

/-! ## The writers of each register (10_state.md R22 to R27) -/

theorem Effect.phase_writer (e : Effect s i t) (h : t.phase ≠ s.phase) :
    i = .enable ∨ i = .pulseOnce ∨ i = .initPorts ∨ i = .tick := by
  cases e with
  | setBody | disableBody => exact (h (setBody_keeps State.phase (fun _ _ => rfl) (fun _ _ => rfl) fun _ => rfl)).elim
  | raised | mapped | answered | setAccepted | disableAccepted | disableDeactivate | disableLevel | reqAccepted | reqHalt =>
    exact absurd rfl h
  | _ => simp

theorem Effect.halt_writer (e : Effect s i t) (h : t.halt ≠ s.halt) :
    i = .enable ∨ i = .pulseOnce ∨ i = .initPorts ∨ i = .reqSelfDisable := by
  cases e with
  | setBody | disableBody => exact (h (setBody_keeps State.halt (fun _ _ => rfl) (fun _ _ => rfl) fun _ => rfl)).elim
  | frame => exact absurd (tickFrame_halt _ _) h
  | raised | undelivered | mapped | answered | setAccepted | disableAccepted | disableDeactivate | disableLevel =>
    exact absurd rfl h
  | _ => simp

theorem Effect.activity_writer (e : Effect s i t) (h : (t.active, t.notify) ≠ (s.active, s.notify)) :
    i = .enable ∨ i = .pulseOnce ∨ i = .initPorts ∨ i = .disable ∨ i = .tick := by
  cases e with
  | setBody =>
    exact (h (setBody_keeps (fun u => (u.active, u.notify)) (fun _ _ => rfl) (fun _ _ => rfl) fun _ => rfl)).elim
  | raised | mapped | answered | setAccepted | reqAccepted | reqHalt => exact absurd rfl h
  | _ => simp

theorem Effect.init_writer (e : Effect s i t) (h : t.init ≠ s.init) : i = .initPorts := by
  cases e with
  | setBody | disableBody => exact (h (setBody_keeps State.init (fun _ _ => rfl) (fun _ _ => rfl) fun _ => rfl)).elim
  | frame => exact absurd (tickFrame_init _ _) h
  | enableBody p => cases p <;> exact absurd rfl h
  | started | initLevel | initBody | initBreathes | initEnds | initEnable => rfl
  | _ => exact absurd rfl h

/-- SEQ is the foreground's: a tick writes it by a raise alone (R21, R209). -/
theorem Effect.seq_writer (e : Effect s i t) (h : t.seq ≠ s.seq) : i ≠ .tick ∨ ∃ c v, c ≠ .none ∧ t = s.raise c v := by
  cases e with
  | raised _ c v hc => exact .inr ⟨c, v, hc, rfl⟩
  | undelivered => exact absurd rfl h
  | frame => exact absurd (tickFrame_seq _ _) h
  | _ => exact .inl nofun

/-- Settles O51: one lemma per register; the fault is written by a raise alone (`Effect.raised_or_keeps_fault`). -/
theorem registersHaveOnlyTheirWriters : Obligations.RegistersHaveOnlyTheirWriters := by
  intro i s t h
  obtain ⟨hf, e⟩ := exec_effect h
  refine ⟨e.phase_writer, e.halt_writer, fun h => e.activity_writer ?_, e.init_writer, fun h => ?_, hf, e.seq_writer⟩
  · rw [Ne, Prod.mk.injEq]
    tauto
  · obtain ⟨c, v, hc, rfl, -⟩ | ⟨hfault, hinfo⟩ := e.raised_or_keeps_fault
    · exact ⟨rfl, c, v, hc, rfl⟩
    · tauto

/-! ## What makes the block active -/

/-- ACTIVE rises by an ARM alone, which is the last micro-step of its command (R141). -/
theorem Effect.rises_by_arm (e : Effect s i t) (hs : s.active = false) (ht : t.active = true) :
    s.seq.atArm = true ∧ t = s.arm.finish 0 := by
  have changed : t.active ≠ s.active := by simp [hs, ht]
  cases e with
  | setBody | disableBody | initBody =>
    exact (changed (setBody_keeps State.active (fun _ _ => rfl) (fun _ _ => rfl) fun _ => rfl)).elim
  | frame hd => simp [State.tickDeliverable, hs] at hd
  | enableBody p hq | initEnable p hq =>
    cases p with
    | phase | halt => exact absurd rfl changed
    | arm => exact ⟨by rw [hq]; rfl, rfl⟩
  | pulseArm hq => exact ⟨by rw [hq]; rfl, rfl⟩
  | disableDeactivate | started => cases ht
  | _ => exact absurd rfl changed

/-- Settles O32: no move of the outside world raises ACTIVE; of the instructions only an ARM does
(`Effect.rises_by_arm`), which is no micro-step of an idle foreground or of a tick. -/
theorem activityRisesOnlyByArm : Obligations.ActivityRisesOnlyByArm := by
  intro s t h hs ht
  have changed : t.active ≠ s.active := by simp [hs, ht]
  obtain ⟨w, -, rfl⟩ | ⟨l, p, b, -, rfl⟩ | ⟨-, rfl⟩ | ⟨w, -, -, -, rfl⟩ | ⟨-, -, he⟩ | ⟨-, -, -, -, rfl⟩ |
    ⟨w, ws, -, -, -, -, -, rfl⟩ | ⟨w, ws, i, -, -, hq, -, -, he⟩ | ⟨i, hm, -, -, he⟩ := step_next h
  · exact absurd (State.takeMove_active s) changed
  · exact absurd (State.takeMove_active s) changed
  · cases ht
  · exact absurd (State.takeMove_active s) changed
  · obtain ⟨-, e⟩ := exec_effect he
    cases e with
    | raised | undelivered => exact absurd (State.takeMove_active s) changed
    | frame hd => simp [State.tickDeliverable, hs] at hd
  · exact absurd (State.takeMove_active s) changed
  · exact absurd (State.takeMove_active s) changed
  · obtain ⟨harm, -⟩ := (exec_effect he).2.rises_by_arm (by simpa using hs) ht
    simp [hq, Seq.atArm] at harm
  · obtain ⟨harm, rfl⟩ := (exec_effect he).2.rises_by_arm (by simpa using hs) ht
    exact ⟨hm, by simpa using harm, rfl, by simp⟩

/-! ## The tick that does not fault -/

/-- A tick that does not fault was not delivered or had admitted inputs (R170, R206). -/
theorem execTick_no_fault (h : execTick s = .next t) (ht : t.fault = .none) :
    (s.tickDeliverable = false ∧ t = s) ∨
    (s.tickDeliverable = true ∧ s.storeInRange ∧ t = tickFrame s s.cfgPeriod (BitVec.ofNat 16 s.cfgLevel)) := by
  obtain ⟨hf, ⟨hd, he⟩ | ⟨-, -, rfl⟩ | ⟨-, -, -, -, rfl⟩ | ⟨hd, h1, h2, hl, he⟩⟩ := execTick_next h
  · exact .inl ⟨hd, he⟩
  · simp [hf] at ht
  · simp [hf] at ht
  · exact .inr ⟨hd, ⟨hl, h1, h2⟩, he⟩

/-- Settles O57: such a tick changed nothing or wrote its frame (`execTick_no_fault`), which keeps the three. -/
theorem tickLeavesTheForegroundWhereItWas : Obligations.TickLeavesTheForegroundWhereItWas := by
  intro s t h ht
  obtain ⟨-, rfl⟩ | ⟨-, -, rfl⟩ := execTick_no_fault h ht
  · exact ⟨rfl, rfl, rfl⟩
  · exact ⟨tickFrame_seq _ _, tickFrame_responses _ _, tickFrame_init _ _⟩

end Sys2Proof.Machine
end

section
/-! PROOFS. One step for each kind of next move, whatever fixed it (10_state.md R21, 60_exceptions.md R200, R205): the
block's agents stop while faulted and answer otherwise; the outside world's moves always answer. -/

namespace Sys2Proof.Machine

variable {s t : State} {i : Instr} {w : Word} {ws : List Word}

theorem step_of (m : Move) (h : s.nextMove = m) : step s = move m s.takeMove := by rw [step, h]

theorem step_foreground (hf : s.fault = .none) (hm : s.nextMove = .foreground) : step s = foreground s.takeMove := by
  rw [step_of _ hm]
  exact running_of (s := s.takeMove) (by simpa using hf) foreground

theorem step_event (hf : s.fault = .none) (hm : s.nextMove = .event w) : step s = deliver w s.takeMove := by
  rw [step_of _ hm]
  exact running_of (s := s.takeMove) (by simpa using hf) (deliver w)

/-! ## The foreground -/

theorem foreground_in_progress (hi : s.seq.instr = some i) : foreground s = exec i s := by
  simp only [foreground, hi]

theorem foreground_waits (hs : s.seq = .idle) (hc : s.commands = []) : foreground s = .next s := by
  simp only [foreground, hs, Seq.instr, hc]

theorem foreground_accepts (hs : s.seq = .idle) (hc : s.commands = w :: ws) :
    foreground s = acceptWord w { s with commands := ws } := by
  simp only [foreground, hs, Seq.instr, hc, State.takeCommand, List.tail_cons]

theorem acceptWord_instr (h : decodeCommand w = .instr i) : acceptWord w s = exec i s := by
  simp only [acceptWord, h]

theorem acceptWord_reserved (h : ∀ i, decodeCommand w ≠ .instr i) : acceptWord w s = .next (s.raise .reserved w) := by
  unfold acceptWord
  split
  case h_1 i hi => exact absurd hi (h i)
  case h_2 => rfl

theorem seq_idle_of_instr (h : s.seq.instr = none) : s.seq = .idle := by
  cases hs : s.seq with
  | idle => rfl
  | _ => simp [hs, Seq.instr] at h

/-- Settles O6: the idle foreground takes its first word (`foreground_accepts`), which decodes to `i`. -/
theorem stepRunsTheDecodedCommand : Obligations.StepRunsTheDecodedCommand := by
  intro s w ws i hf hs hm hc hd
  rw [step_foreground hf hm, foreground_accepts (s := s.takeMove) (by simpa using hs) (by simpa using hc)]
  exact acceptWord_instr hd

/-- Settles O7: the foreground's move goes to the instruction SEQ holds (`foreground_in_progress`). -/
theorem stepRunsTheCommandInProgress : Obligations.StepRunsTheCommandInProgress := by
  intro s i hf hm hi
  rw [step_foreground hf hm]
  exact foreground_in_progress (by simpa using hi)

/-- Settles O8: the event port's decoder knows one word. -/
theorem stepDeliversEvents : Obligations.StepDeliversEvents := by
  intro s w hf hm
  rw [step_event hf hm]
  by_cases hw : w = tickWord
  · simp [deliver, decodeEvent, hw, tickWord]
  · rw [if_neg (show ¬ w = 0x00000009 from hw)]
    simp [deliver, decodeEvent, hw]

/-- Settles O9: the two moves of the outside world as they are defined, and the waiting foreground
(`foreground_waits`). -/
theorem stepTakesTheWorldsMoves : Obligations.StepTakesTheWorldsMoves := by
  refine fun s => ⟨fun w hm => ?_, fun l p b hm => step_of _ hm, fun hm hf hs hc => ?_⟩
  · rw [step_of _ hm]
    simp [move, State.drive]
  · rw [step_foreground hf hm]
    exact foreground_waits (by simpa using hs) (by simpa using hc)

/-- Settles O10: the word is taken and turned away (`acceptWord_reserved`). -/
theorem reservedWordRaisesReserved : Obligations.ReservedWordRaisesReserved := by
  intro s w ws hf hs hm hc hd
  rw [step_foreground hf hm, foreground_accepts (s := s.takeMove) (by simpa using hs) (by simpa using hc),
    acceptWord_reserved hd, raise_of_no_fault (by simpa using hf)]

/-! ## Which steps answer -/

theorem foreground_answers (hf : s.fault = .none) : ∃ t, foreground s = .next t := by
  cases hi : s.seq.instr with
  | some i =>
    rw [foreground_in_progress hi]
    exact exec_answers hf (.inr (.inr hi))
  | none =>
    have hs := seq_idle_of_instr hi
    cases hc : s.commands with
    | nil => exact ⟨s, foreground_waits hs hc⟩
    | cons w ws =>
      rw [foreground_accepts hs hc]
      unfold acceptWord
      split
      · exact exec_answers hf (.inr (.inl hs))
      · exact ⟨_, rfl⟩

theorem deliver_answers (hf : s.fault = .none) (w : Word) : ∃ t, deliver w s = .next t := by
  unfold deliver decodeEvent
  split_ifs
  · exact exec_answers hf (.inl rfl)
  · exact ⟨s, rfl⟩

/-- The next move is one of the block's two agents'. -/
def State.agentMoves (s : State) : Prop := s.nextMove = .foreground ∨ ∃ w, s.nextMove = .event w

theorem step_faulted (hf : s.fault ≠ .none) (ha : s.agentMoves) : step s = .fault .stopped := by
  have hf : s.takeMove.fault ≠ .none := by simpa using hf
  obtain hm | ⟨w, hm⟩ := ha <;> rw [step_of _ hm]
  · exact running_faulted hf _
  · exact running_faulted hf _

theorem step_answers (h : s.agentMoves → s.fault = .none) : ∃ t, step s = .next t := by
  cases hm : s.nextMove with
  | foreground =>
    have hf := h (.inl hm)
    rw [step_foreground hf hm]
    exact foreground_answers (by simpa using hf)
  | event w =>
    have hf := h (.inr ⟨w, hm⟩)
    rw [step_event hf hm]
    exact deliver_answers (by simpa using hf) w
  | drive w => exact ⟨_, step_of _ hm⟩
  | store l p b => exact ⟨_, step_of _ hm⟩
  | powerOn => exact ⟨_, step_of _ hm⟩

/-- Settles O11: in the case named the step is the named stop (`step_faulted`), in every other it answers
(`step_answers`). -/
theorem stepStopsOnlyWhenFaulted : Obligations.StepStopsOnlyWhenFaulted := by
  intro s
  by_cases h : s.fault ≠ .none ∧ s.agentMoves
  · have hstep := step_faulted h.1 h.2
    exact ⟨fun r => by simp [hstep], fun r => ⟨fun _ => h, fun _ => hstep⟩⟩
  · obtain ⟨t, hstep⟩ := step_answers fun ha => by_contra fun hf => h ⟨hf, ha⟩
    exact ⟨fun r => by simp [hstep], fun r => ⟨fun hr => by simp [hstep] at hr, fun hr => absurd hr h⟩⟩

theorem exec_faulted (hf : s.fault ≠ .none) (i : Instr) : exec i s = .fault .stopped := by
  cases i <;> exact if_neg hf

/-- Settles O46: every instruction and every agent's move is under the same guard (`exec_faulted`, `step_faulted`); a
power-on is not. -/
theorem faultedBlockWaitsForReset : Obligations.FaultedBlockWaitsForReset :=
  fun _ hf => ⟨exec_faulted hf, fun hm => step_faulted hf (.inl hm), fun w hm => step_faulted hf (.inr ⟨w, hm⟩),
    fun hm => ⟨_, step_of _ hm, rfl, rfl⟩⟩

/-- Settles O50: the step is `State.powerOn`, which is that update. -/
theorem powerOnResetsTheRegisters : Obligations.PowerOnResetsTheRegisters :=
  fun _ hm => step_of _ hm

/-- Settles O44: both tests of `State.raise` ask the same. -/
theorem raiseKeepsTheFirstFault : Obligations.RaiseKeepsTheFirstFault :=
  fun _ c v => ⟨fun hf => raise_of_no_fault hf c v, fun hf => by simp [State.raise, hf]⟩

/-! ## Duties -/

theorem exec_no_fault (h : exec i s = .next t) (hr : s.storeInRange) (ha : s.seq = .idle → admission i s = .none) :
    t.fault = .none := by
  by_contra ht
  obtain ⟨-, -, -, -, hbad | ⟨hs, hbad⟩⟩ := exec_raised h ht
  · exact hbad hr
  · exact hbad (ha hs)

/-- The decode checks read INIT and BL alone. -/
theorem admission_congr (hi : t.init = s.init) (hb : t.bl = s.bl) (i : Instr) : admission i t = admission i s := by
  cases i <;> simp [admission, hi, hb]

/-- Settles O49: the step answers (`step_answers`), and a raise would need an input out of range or a word not admitted
(`exec_no_fault`). -/
theorem dutiesKeptNeverFault : Obligations.DutiesKeptNeverFault := by
  intro s hf ⟨hr, hw⟩
  obtain ⟨t, h⟩ := step_answers (s := s) fun _ => hf
  refine ⟨t, h, ?_⟩
  have hf' : s.takeMove.fault = .none := by simpa using hf
  have hr' : s.takeMove.storeInRange := by simpa [State.storeInRange] using hr
  obtain ⟨w, -, rfl⟩ | ⟨l, p, b, -, rfl⟩ | ⟨-, rfl⟩ | ⟨w, -, -, -, rfl⟩ | ⟨-, -, he⟩ | ⟨-, -, -, -, rfl⟩ |
    ⟨w, ws, hm, -, hs, hc, hd, -⟩ | ⟨w, ws, i, hm, -, hs, hc, hd, he⟩ | ⟨i, -, -, hi, he⟩ := step_next h
  · exact hf'
  · exact hf'
  · rfl
  · exact hf'
  · exact exec_no_fault he hr' fun _ => rfl
  · exact hf'
  · obtain ⟨i, hi, -⟩ := hw hm hs w (by rw [hc]; rfl)
    exact absurd hi (hd i)
  · obtain ⟨j, hj, ha⟩ := hw hm hs w (by rw [hc]; rfl)
    obtain rfl : i = j := Decoded.instr.inj (hd.symm.trans hj)
    exact exec_no_fault he hr' fun _ => (admission_congr (by simp) (by simp) i).trans ha
  · refine exec_no_fault he hr' fun hs => ?_
    rw [State.takeMove_seq] at hs
    simp [hs, Seq.instr] at hi

end Sys2Proof.Machine
end

section
/-! PROOFS. Each command at each of its micro-steps (41_static_setter.md R120 to R126, 42_breathing_fsm.md R143 to R148,
40_lightness_mapper.md R109): one equation per point SEQ can stand at. -/

namespace Sys2Proof.Machine

variable {s : State} {i : Instr}

/-! ## Acceptance (30_encoding.md R77) -/

/-- The first micro-step of a command whose decode checks pass; `TICK` is no command. -/
def Instr.firstStep (i : Instr) (s : State) : State :=
  match i with
  | .initPorts => s.startUp.goto (.initPorts .readLevel)
  | .set level => s.goto (.set (BodyPoint.first level))
  | .enable => s.goto (.enable .phase)
  | .pulseOnce => s.goto (.pulseOnce .readLevel)
  | .disable => s.goto (.disable .deactivate)
  | .reqSelfDisable => s.goto .reqSelfDisable
  | .isActive => s.finish (bitWord s.active)
  | .map linear => s.finish (zext32 (mapDuty linear))
  | .tick => s

theorem exec_idle (hf : s.fault = .none) (hs : s.seq = .idle) (hp : i.port = .command) :
    exec i s = accept i s (Instr.firstStep i) := by
  have run (k : State → Result) : running s k = k s := running_of hf k
  cases i with
  | initPorts => simp only [exec, execInitPorts, run, hs]; rfl
  | set level => simp only [exec, execSet, run, hs]; rfl
  | enable => simp only [exec, execEnable, run, hs]; rfl
  | pulseOnce => simp only [exec, execPulseOnce, run, hs]; rfl
  | disable => simp only [exec, execDisable, run, hs]; rfl
  | reqSelfDisable => simp only [exec, execReqSelfDisable, run, hs]; rfl
  | isActive => simp only [exec, execIsActive, run, hs]; rfl
  | map linear => simp only [exec, execMap, run, hs]; rfl
  | tick => cases hp

theorem exec_accepted (hf : s.fault = .none) (hs : s.seq = .idle) (hp : i.port = .command) (ha : admission i s = .none) :
    exec i s = .next (Instr.firstStep i s) := by
  rw [exec_idle hf hs hp, accept_of _ ha]

theorem exec_not_admitted (hf : s.fault = .none) (hs : s.seq = .idle) (hp : i.port = .command) {c : FaultCode}
    (ha : admission i s = c) (hc : c ≠ .none) :
    exec i s = .next { s with fault := c, faultInfo := encode i } := by
  subst ha
  rw [exec_idle hf hs hp, accept_of_fault _ hc, raise_of_no_fault hf, ← hs]

/-! ## The bodies -/

theorem setBody_disable {c : Channel} (hc : c ≠ 4) (resume : BodyPoint → Seq) (done : State → State) :
    setBody (.disable c) resume done s = (s.emit [.disableCh c]).goto (resume (.disable (c + 1))) := if_neg hc

theorem staticFrame_inactive (ha : s.active = false) (L : Half) : staticFrame s L = enableAll (staticDuty s.bl L) :=
  if_neg (by simp [ha])

/-- Where the body begins, told from the level the store answers. -/
theorem first_level (h : s.cfgLevel ≤ s.bl.toNat) : BodyPoint.first (BitVec.ofNat 16 s.cfgLevel) =
    if s.cfgLevel = 0 then .disable 0 else .enable (BitVec.ofNat 16 s.cfgLevel) := by
  simp only [BodyPoint.first, level_eq_zero h]

/-! ## The points of each command -/

theorem execEnable_body {p : EnablePoint} (hf : s.fault = .none) (hs : s.seq = .enable p) :
    execEnable s = .next (enableBody p .enable s) := by
  simp [execEnable, running_of hf, hs]

theorem execPulseOnce_readLevel (hf : s.fault = .none) (hs : s.seq = .pulseOnce .readLevel) :
    execPulseOnce s = pulseStart s := by
  simp [execPulseOnce, running_of hf, hs]

theorem execPulseOnce_halt (hf : s.fault = .none) (hs : s.seq = .pulseOnce .halt) :
    execPulseOnce s = .next ((s.setHalt .atOn).goto (.pulseOnce .arm)) := by
  simp [execPulseOnce, running_of hf, hs]

theorem execPulseOnce_arm (hf : s.fault = .none) (hs : s.seq = .pulseOnce .arm) :
    execPulseOnce s = .next (s.arm.finish 0) := by
  simp [execPulseOnce, running_of hf, hs]

theorem execDisable_deactivate (hf : s.fault = .none) (hs : s.seq = .disable .deactivate) :
    execDisable s = .next (s.deactivate.goto (.disable .readLevel)) := by
  simp [execDisable, running_of hf, hs]

theorem execDisable_readLevel (hf : s.fault = .none) (hs : s.seq = .disable .readLevel) :
    execDisable s = withLevel s fun level => .next (s.goto (.disable (.body (BodyPoint.first level)))) := by
  simp [execDisable, running_of hf, hs]

theorem execReqSelfDisable_halt (hf : s.fault = .none) (hs : s.seq = .reqSelfDisable) :
    execReqSelfDisable s = withLevel s fun level => .next ((s.setHalt (haltFor level)).finish 0) := by
  simp [execReqSelfDisable, running_of hf, hs]

theorem execInitPorts_readLevel (hf : s.fault = .none) (hs : s.seq = .initPorts .readLevel) :
    execInitPorts s = withLevel s fun level => .next (s.goto (.initPorts (.body (BodyPoint.first level)))) := by
  simp [execInitPorts, running_of hf, hs]

theorem execInitPorts_readBreathing (hf : s.fault = .none) (hs : s.seq = .initPorts .readBreathing) :
    execInitPorts s = .next (if s.cfgBreathing then s.goto (.initPorts (.enable .phase)) else s.finish 0) := by
  simp [execInitPorts, running_of hf, hs]

theorem execInitPorts_enable {p : EnablePoint} (hf : s.fault = .none) (hs : s.seq = .initPorts (.enable p)) :
    execInitPorts s = .next (enableBody p (fun p => .initPorts (.enable p)) s) := by
  simp [execInitPorts, running_of hf, hs]

/-- At level 0 the phase is 0, and the period is not read (R144, decision D35). -/
theorem pulseStart_dark (hl : s.cfgLevel = 0) : pulseStart s = .next ((s.setPhase 0).goto (.pulseOnce .halt)) := by
  rw [pulseStart, withLevel_of _ (by omega), hl]
  rfl

theorem pulseStart_bright (hl : s.cfgLevel ≠ 0) (hr : s.storeInRange) :
    pulseStart s = .next ((s.setPhase (pulsePhase s.cfgPeriod)).goto (.pulseOnce .halt)) := by
  obtain ⟨hbl, h1, h2⟩ := hr
  rw [pulseStart, withLevel_of _ hbl, if_neg (fun h => hl ((level_eq_zero hbl).mp h)), withPeriod_of _ h1 h2]

theorem pulsePhase_toNat {P : Nat} (h2 : P ≤ 256) : (pulsePhase P).toNat = 128 * P := by
  rw [pulsePhase, BitVec.toNat_ofNat]
  omega

/-- The phase of the "on" extreme is the first of index 64 (R144, R174). -/
theorem waveIndex_pulsePhase {P : Nat} (h1 : 1 ≤ P) (h2 : P ≤ 256) :
    waveIndex (pulsePhase P) P = 64 ∧ waveIndex (pulsePhase P - 1) P = 63 := by
  have on := pulsePhase_toNat h2
  have before : (pulsePhase P - 1).toNat = 128 * P - 1 := by
    rw [BitVec.toNat_sub_of_le (by rw [BitVec.le_def, on]; simp; omega), on]
    rfl
  constructor <;> apply BitVec.eq_of_toNat_eq
  · rw [waveIndex_toNat h1 (by omega), on]
    exact Nat.div_eq_of_lt_le (by simp; omega) (by simp; omega)
  · rw [waveIndex_toNat h1 (by omega), before]
    exact Nat.div_eq_of_lt_le (by simp; omega) (by simp; omega)

theorem zext32_toNat (v : Half) : (zext32 v).toNat = v.toNat := by
  rw [zext32, BitVec.toNat_setWidth]
  omega

/-- Settles O17: `MAP` passes every decode check, and its first micro-step is its last. -/
theorem mapAnswersTheMapper : Obligations.MapAnswersTheMapper := by
  refine fun s v hf hs => ⟨zext32 (mapDuty v), zext32_toNat _, ?_⟩
  rw [exec_accepted hf hs rfl rfl, hs]
  rfl

/-- Settles O18: acceptance (`execSet_accepted`), then the body's points (`execSet_body`). -/
theorem setMicroSteps : Obligations.SetMicroSteps := by
  refine fun s hf => ⟨fun L hs hi hL => execSet_accepted hf hs hi hL, fun c hc hs => ?_, fun hs => ?_,
    fun L hs => execSet_body hf hs⟩
  · exact (execSet_body hf hs).trans (congrArg _ (setBody_disable hc _ _))
  · exact execSet_body hf hs

/-- Settles O31: the first micro-step is the last. -/
theorem isActiveAnswersActive : Obligations.IsActiveAnswersActive := by
  intro s hf hs hi
  rw [exec_accepted hf hs rfl (by simp [admission, hi]), hs]
  rfl

/-- Settles O25: acceptance, then the points of `ENABLE_BODY`. -/
theorem enableMicroSteps : Obligations.EnableMicroSteps :=
  fun _ hf => ⟨fun hs hi => exec_accepted hf hs rfl (by simp [admission, hi]), execEnable_body hf, execEnable_body hf,
    execEnable_body hf⟩

/-- Settles O30: acceptance, then the level read decides the halt mode. -/
theorem reqSelfDisableMicroSteps : Obligations.ReqSelfDisableMicroSteps := by
  refine fun s hf => ⟨fun hs hi => exec_accepted hf hs rfl (by simp [admission, hi]), fun hs hl => ?_⟩
  have mode : haltFor (BitVec.ofNat 16 s.cfgLevel) = if s.cfgLevel = 0 then .atOff else .atOn := by
    simp only [haltFor, level_eq_zero hl]
  rw [← mode]
  exact (execReqSelfDisable_halt hf hs).trans (withLevel_of _ hl)

/-- Settles O27: acceptance; the phase store at level 0 and above it (`pulseStart_dark`, `pulseStart_bright`); the halt
mode; the arm. -/
theorem pulseOnceMicroSteps : Obligations.PulseOnceMicroSteps := by
  refine fun s hf => ⟨fun hs hi => exec_accepted hf hs rfl (by simp [admission, hi]),
    fun hs hl => (execPulseOnce_readLevel hf hs).trans (pulseStart_dark hl), fun hs hl hr => ?_,
    execPulseOnce_halt hf, execPulseOnce_arm hf⟩
  obtain ⟨h64, h63⟩ := waveIndex_pulsePhase hr.2.1 hr.2.2
  exact ⟨_, pulsePhase_toNat hr.2.2, h64, h63,
    (execPulseOnce_readLevel hf hs).trans (pulseStart_bright (by omega) hr)⟩

/-- Settles O28: acceptance, the deactivation, the level read, then the body's points (`execDisable_body`). -/
theorem disableMicroSteps : Obligations.DisableMicroSteps := by
  refine fun s hf => ⟨fun hs hi => exec_accepted hf hs rfl (by simp [admission, hi]), execDisable_deactivate hf,
    fun hs hl => ?_, fun c hc hs => ?_, fun hs => ?_, fun L hs ha => ?_⟩
  · rw [← first_level hl]
    exact (execDisable_readLevel hf hs).trans (withLevel_of _ hl)
  · exact (execDisable_body hf hs).trans (congrArg _ (setBody_disable hc _ _))
  · exact execDisable_body hf hs
  · rw [← staticFrame_inactive ha]
    exact execDisable_body hf hs

/-- Settles O23: acceptance, the level read, the body's points (`execInitPorts_body`), the breathing read, then the
points of `ENABLE_BODY`. -/
theorem initPortsMicroSteps : Obligations.InitPortsMicroSteps := by
  refine fun s hf => ⟨fun hs hi => exec_accepted hf hs rfl (by simp [admission, hi]), fun hs hl => ?_, fun c hs => ?_,
    fun L hs ha => ?_, fun hs hb => ?_, fun hs hb => ?_, execInitPorts_enable hf, execInitPorts_enable hf,
    execInitPorts_enable hf⟩
  · rw [← first_level hl]
    exact (execInitPorts_readLevel hf hs).trans (withLevel_of _ hl)
  · refine (execInitPorts_body hf hs).trans ?_
    by_cases hc : c = 4
    · subst hc
      rfl
    · rw [setBody_disable hc, if_neg hc]
      rfl
  · rw [← staticFrame_inactive ha]
    exact execInitPorts_body hf hs
  · refine (execInitPorts_readBreathing hf hs).trans ?_
    rw [if_pos hb]
    rfl
  · refine (execInitPorts_readBreathing hf hs).trans ?_
    rw [if_neg (by simp [hb])]
    rfl

/-! ## Faults at acceptance and of the store's reads -/

/-- Settles O47: for each case what the decode checks answer (`admission`), which is raised (`exec_not_admitted`). -/
theorem admissionFaultsInOrder : Obligations.AdmissionFaultsInOrder := by
  refine fun s hf hs => ⟨fun hi => ?_, fun hi i hp h1 h2 => ?_, fun hi L hL => ?_⟩
  · exact exec_not_admitted hf hs rfl (c := .reinit) (by simp [admission, hi]) (by decide)
  · exact exec_not_admitted hf hs hp (by rw [admission_command hp h1 h2, if_neg (by simp [hi])]) (by decide)
  · exact exec_not_admitted hf hs rfl (by simp [admission, hi, hL]) (by decide)

theorem withLevel_faults (hf : s.fault = .none) (hl : s.bl.toNat < s.cfgLevel) (k : Half → Result) :
    withLevel s k =
      .next { s with fault := .levelRange, faultInfo := BitVec.ofNat 32 s.cfgLevel, seq := .idle } :=
  (if_pos hl).trans (congrArg _ (raise_of_no_fault hf _ _))

theorem withPeriod_faults (hf : s.fault = .none) (hp : s.cfgPeriod = 0 ∨ 256 < s.cfgPeriod) (k : Nat → Result) :
    withPeriod s k =
      .next { s with fault := .periodRange, faultInfo := BitVec.ofNat 32 s.cfgPeriod, seq := .idle } :=
  (if_pos (by omega)).trans (congrArg _ (raise_of_no_fault hf _ _))

/-- Settles O48: at each of the four points the micro-step is a level read; above level 0 `PULSE_ONCE` reads the period
next. -/
theorem storeReadsFaultOutOfRange : Obligations.StoreReadsFaultOutOfRange := by
  refine fun s hf => ⟨fun hl i h => ?_, fun hs h1 hl hp => ?_⟩
  · obtain ⟨rfl, hs⟩ | ⟨rfl, hs⟩ | ⟨rfl, hs⟩ | ⟨rfl, hs⟩ := h
    · exact (execInitPorts_readLevel hf hs).trans (withLevel_faults hf hl _)
    · exact (execPulseOnce_readLevel hf hs).trans (withLevel_faults hf hl _)
    · exact (execDisable_readLevel hf hs).trans (withLevel_faults hf hl _)
    · exact (execReqSelfDisable_halt hf hs).trans (withLevel_faults hf hl _)
  · have bright : BitVec.ofNat 16 s.cfgLevel ≠ 0 := fun h => absurd ((level_eq_zero hl).mp h) (by omega)
    refine (execPulseOnce_readLevel hf hs).trans ?_
    rw [pulseStart, withLevel_of _ hl, if_neg bright, withPeriod_faults hf hp]

/-! ## The tick's guard and faults -/

theorem execTick_undelivered (hf : s.fault = .none) (hd : s.tickDeliverable = false) : execTick s = .next s := by
  rw [execTick, running_of hf, hd]
  rfl

theorem execTick_delivered (hf : s.fault = .none) (hd : s.tickDeliverable = true) : execTick s = tickBody s := by
  rw [execTick, running_of hf, if_pos hd]

theorem tickDeliverable_iff : s.tickDeliverable = true ↔ s.active = true ∧ s.notify = true ∧ s.fault = .none := by
  simp [State.tickDeliverable, and_assoc]

/-- Settles O37: such a tick is not delivered. -/
theorem undeliveredTickLeavesNothing : Obligations.UndeliveredTickLeavesNothing := by
  intro s hf h
  refine execTick_undelivered hf (Bool.eq_false_of_not_eq_true fun hd => ?_)
  obtain ⟨ha, hn, -⟩ := tickDeliverable_iff.mp hd
  simp [ha, hn] at h

/-- Settles O38: the period's check comes before the level's (R171). -/
theorem tickFaultsOnPeriodFirst : Obligations.TickFaultsOnPeriodFirst := by
  refine fun s hf ha hn => ⟨fun hp => ?_, fun h1 h2 hl => ?_⟩ <;>
    refine (execTick_delivered hf (tickDeliverable_iff.mpr ⟨ha, hn, hf⟩)).trans ?_
  · exact withPeriod_faults hf hp _
  · exact (withPeriod_of _ h1 h2).trans (withLevel_faults hf hl _)

end Sys2Proof.Machine
end

section
/-! PROOFS. The mapper as a table and as a function of its input (40_lightness_mapper.md R105 to R108), and the duties
computed with it (41_static_setter.md R122, 43_periodic_tick.md R178): on each segment it grows, and one row is one
value of `y`. -/

namespace Sys2Proof.Machine

/-! ## The table -/

/-- A row's inputs have the `y` of its ends, so its value is the mapper's. -/
theorem MapRow.value_eq {r : MapRow} (hr : r.ok = true) {v : Nat} (h1 : r.lo ≤ v) (h2 : v ≤ r.hi) :
    r.value = min (mapCube (mapY v)) 65535 := by
  simp only [MapRow.ok, Bool.and_eq_true, beq_iff_eq] at hr
  obtain ⟨hends, hvalue⟩ := hr
  have hy : mapY v = mapY r.lo := le_antisymm ((mapY_mono h2).trans_eq hends.symm) (mapY_mono h1)
  rw [hy, hvalue]

theorem mapLut_high {v : Nat} (h1 : 5243 < v) (h2 : v ≤ 65535) : mapLut v = some (min (mapCube (mapY v)) 65535) := by
  obtain ⟨q, hq, hin⟩ := mapRows_cover h1 h2
  rw [mapLut, if_neg (by omega)]
  cases hfound : mapRows.find? fun r => decide (r.lo ≤ v ∧ v ≤ r.hi) with
  | none => exact absurd hin (by simpa using List.find?_eq_none.mp hfound q hq)
  | some r =>
    obtain ⟨hlo, hhi⟩ : r.lo ≤ v ∧ v ≤ r.hi := by simpa using List.find?_some hfound
    have hr : r.ok = true := List.all_eq_true.mp mapRows_ok r (List.mem_of_find?_eq_some hfound)
    rw [Option.map_some, MapRow.value_eq hr hlo hhi]

/-- Settles O14: the low segment is the same division; in the high segment a row holds the input (`mapRows_cover`), and
its value is the clamped cube (`MapRow.value_eq`). -/
theorem mapperEqualsItsTable : Obligations.MapperEqualsItsTable := by
  intro v
  by_cases h : v.toNat ≤ 5243
  · rw [mapDuty_toNat_low h, mapLut, if_pos h]
  · rw [mapDuty_toNat_high (by omega)]
    exact mapLut_high (by omega) (by have := v.isLt; omega)

/-! ## Where the mapper grows -/

theorem mapNat_low {v : Nat} (h : v ≤ 5243) : mapNat v = v / 9 := if_pos h

theorem mapNat_high {v : Nat} (h : 5243 < v) : mapNat v = min (mapCube (mapY v)) 65535 := if_neg (by omega)

theorem mapNat_mono_low {u v : Nat} (h : u ≤ v) (hv : v ≤ 5243) : mapNat u ≤ mapNat v := by
  rw [mapNat_low hv, mapNat_low (h.trans hv)]
  exact Nat.div_le_div_right h

theorem mapNat_mono_high {u v : Nat} (hu : 5243 < u) (h : u ≤ v) : mapNat u ≤ mapNat v := by
  rw [mapNat_high hu, mapNat_high (by omega)]
  exact min_le_min_right _ (mapCube_mono (mapY_mono h))

theorem mapNat_5243 : mapNat 5243 = 582 := by decide
theorem mapNat_5244 : mapNat 5244 = 549 := by decide
theorem mapNat_5549 : mapNat 5549 = 581 := by decide
theorem mapNat_5550 : mapNat 5550 = 615 := by decide

theorem mapDuty_ofNat_toNat {v : Nat} (h : v ≤ 65535) : (mapDuty (BitVec.ofNat 16 v)).toNat = mapNat v := by
  rw [mapDuty_toNat, BitVec.toNat_ofNat, Nat.mod_eq_of_lt (by omega)]

/-- Settles O15: on each segment the mapper grows (`mapNat_mono_low`, `mapNat_mono_high`), so it falls between them
alone; the values at 5243, 5549 and 5550 bound the rest. -/
theorem mapperFallsOnlyAtTheBreakpoint : Obligations.MapperFallsOnlyAtTheBreakpoint := by
  refine ⟨fun v hv => ?_, fun v hv => ?_⟩
  · rw [mapDuty_ofNat_toNat hv, mapDuty_ofNat_toNat hv.le]
    obtain hlow | rfl | hhigh := Nat.lt_trichotomy v 5243
    · have := mapNat_mono_low (Nat.le_succ v) hlow
      omega
    · rw [mapNat_5243, mapNat_5244]
      omega
    · have := mapNat_mono_high hhigh (Nat.le_succ v)
      omega
  · have drop : (mapDuty 5243).toNat = 582 := (mapDuty_toNat 5243).trans mapNat_5243
    rw [drop, mapDuty_toNat]
    by_cases h : v.toNat ≤ 5549
    · have := mapNat_mono_high (u := v.toNat) (by omega) h
      rw [mapNat_5549] at this
      omega
    · have := mapNat_mono_high (u := 5550) (v := v.toNat) (by omega) (by omega)
      rw [mapNat_5550] at this
      omega

/-! ## The clamp -/

theorem mapY_65534 : mapY 65534 = 255 := by decide
theorem mapCube_255 : mapCube 255 = 64770 := by decide

/-- Below full scale `y` is at most 255, so the clamp has nothing to do (R105). -/
theorem mapCube_le {v : Nat} (h : v ≤ 65534) : mapCube (mapY v) ≤ 64770 :=
  mapCube_255 ▸ mapCube_mono (mapY_65534 ▸ mapY_mono h)

/-- Settles O16: at full scale the cube is 65536, at most 64770 elsewhere (`mapCube_le`). -/
theorem mapperClampsOnlyAtFullScale : Obligations.MapperClampsOnlyAtFullScale := by
  refine ⟨by rw [mapY_last, mapCube_last], congrArg BitVec.toNat mapperEdgeValues.2.2, fun v h1 h2 => ?_⟩
  have hcube := mapCube_le (v := v.toNat) (by have := v.isLt; omega)
  exact ⟨hcube, by rw [mapDuty_toNat_high h1, min_eq_left (by omega)]⟩

/-! ## The static duty and the frame's -/

theorem quotient_le {bl L : Half} (h : L ≤ bl) : 65535 * L.toNat / bl.toNat ≤ 65535 :=
  Nat.div_le_of_le_mul (by rw [Nat.mul_comm bl.toNat]; exact Nat.mul_le_mul_left _ (BitVec.le_def.mp h))

/-- Settles O20: the quotient is a u16 (`quotient_le`), and at the top level it is full scale. -/
theorem staticDutyIsMapOfTheQuotient : Obligations.StaticDutyIsMapOfTheQuotient := by
  intro bl L h1 hL
  have hbl : 0 < bl.toNat := h1.trans (BitVec.le_def.mp hL)
  refine ⟨quotient_le hL, mapDuty_ofNat_toNat (quotient_le hL), ?_⟩
  rw [staticDuty, Nat.mul_div_cancel _ hbl]
  exact mapperEdgeValues.2.2

/-- Settles O39: the scaled sample is at most 255 under DOC, which the low segment divides by 9, and at most 65280
under the other formula, which is below full scale (`mapCube_le`). -/
theorem frameDutyIsBounded : Obligations.FrameDutyIsBounded := by
  intro s idx L hL
  have hx := (Memory.read s.rom idx).isLt
  rw [frameDuty_toNat idx hL]
  constructor <;> intro hv <;> rw [hv]
  · have scaled := scale_doc_le s.bl (Memory.read s.rom idx) hL
    rw [mapNat_low (by omega)]
    omega
  · have scaled := scale_x256_le s.bl (Memory.read s.rom idx) hL
    obtain hlow | hhigh := Nat.lt_or_ge 5243 (scale .upstreamX256 s.bl (Memory.read s.rom idx) L)
    · rw [mapNat_high hlow]
      exact (min_le_left _ _).trans (mapCube_le (by omega))
    · rw [mapNat_low hhigh]
      omega

end Sys2Proof.Machine
end

section
/-! PROOFS. The tick (43_periodic_tick.md R172 to R179): the index and the halt check as numbers, the frame under the
reference backend. -/

namespace Sys2Proof.Machine

variable {s t : State}

/-! ## The index -/

/-- Settles O36: the index is the quotient by `2 * P` (`waveIndex_toNat`). -/
theorem indexSelectsItsPhases : Obligations.IndexSelectsItsPhases := by
  intro P phase k h1 h2 hlt
  rw [← BitVec.toNat_inj, waveIndex_toNat h1 hlt, Nat.div_eq_iff (by omega), Nat.mul_comm k.toNat]

/-- The index of a tick's new phase. -/
theorem waveIndex_nextPhase (phase : Half) {P : Nat} (h1 : 1 ≤ P) (h2 : P ≤ 256) :
    waveIndex (nextPhase phase P) P = BitVec.ofNat 7 ((phase.toNat + 1) % (P * 256) / (2 * P)) := by
  have hlt := nextPhase_lt phase h1 h2
  have hidx := div_interval_lt h1 hlt
  apply BitVec.eq_of_toNat_eq
  rw [waveIndex_toNat h1 hlt, ← nextPhase_toNat phase h1 h2, BitVec.toNat_ofNat, Nat.mod_eq_of_lt hidx]

theorem haltHits_iff {h : HaltMode} {idx : Index} :
    haltHits h idx = true ↔ (h = .atOn ∧ idx = 64) ∨ (h = .atOff ∧ idx = 127) := by
  cases h <;> simp [haltHits]

theorem haltHits_waveIndex {h : HaltMode} {phase : Half} {P : Nat} (h1 : 1 ≤ P) (hlt : phase.toNat < 256 * P) :
    haltHits h (waveIndex phase P) = true ↔
      (h = .atOn ∧ phase.toNat / (2 * P) = 64) ∨ (h = .atOff ∧ phase.toNat / (2 * P) = 127) := by
  rw [haltHits_iff, ← waveIndex_toNat h1 hlt, ← BitVec.toNat_inj, ← BitVec.toNat_inj]
  rfl

/-! ## The frame -/

theorem tickFrame_halts {P : Nat} (L : Half) (h : haltHits s.halt (waveIndex (nextPhase s.phase P) P) = true) :
    tickFrame s P L = { s with
      phase := nextPhase s.phase P, active := false, notify := false
      out := s.out ++ [.stop, .start .null] ++ enableAll (frameDuty s (waveIndex (nextPhase s.phase P) P) L) } := by
  obtain ⟨-, e⟩ | ⟨hh, -⟩ := tickFrame_cases (s := s) P L
  · rw [e, List.append_assoc]
  · simp [h] at hh

theorem tickFrame_goes_on {P : Nat} (L : Half) (h : ¬ haltHits s.halt (waveIndex (nextPhase s.phase P) P) = true) :
    tickFrame s P L = { s with
      phase := nextPhase s.phase P
      out := s.out ++ enableAll (frameDuty s (waveIndex (nextPhase s.phase P) P) L) } := by
  obtain ⟨hh, -⟩ | ⟨-, e⟩ := tickFrame_cases (s := s) P L
  · exact absurd hh h
  · exact e

/-- Settles O33: the tick answers its frame (`execTick_of`), halting or not (`tickFrame_halts`, `tickFrame_goes_on`);
the phase, the index and the duty are read as numbers. -/
theorem tickAdvancesAndWritesItsFrame : Obligations.TickAdvancesAndWritesItsFrame := by
  intro s hf ha hn hr P phase idx halts x scaled
  obtain ⟨hl, h1, h2⟩ := id hr
  have answer := execTick_of hf ha hn hr
  have hphase : (nextPhase s.phase P).toNat = phase := nextPhase_toNat _ h1 h2
  have hlt : (nextPhase s.phase P).toNat < 256 * P := nextPhase_lt _ h1 h2
  have hidx : waveIndex (nextPhase s.phase P) P = BitVec.ofNat 7 idx := waveIndex_nextPhase _ h1 h2
  have hhalt : haltHits s.halt (waveIndex (nextPhase s.phase P) P) = true ↔ halts := by
    rw [haltHits_waveIndex h1 hlt, hphase]
  have hscaled : scale s.scaleVariant s.bl (Memory.read s.rom (BitVec.ofNat 7 idx)) (BitVec.ofNat 16 s.cfgLevel) =
      scaled := by
    simp only [scaled, x]
    cases s.scaleVariant <;> simp only [scale, level_toNat hl]
  refine ⟨div_interval_lt h1 (hphase ▸ hlt), nextPhase s.phase P,
    frameDuty s (waveIndex (nextPhase s.phase P) P) (BitVec.ofNat 16 s.cfgLevel), hphase, ?_, fun h => ?_, fun h => ?_⟩
  · rw [frameDuty_toNat _ (level_le hl), hidx, hscaled]
  · exact answer.trans (congrArg _ (tickFrame_halts _ (hhalt.mpr h)))
  · exact answer.trans (congrArg _ (tickFrame_goes_on _ fun hh => h (hhalt.mp hh)))

/-- What a delivered tick's frame makes of the activity and of the stream (R175). -/
theorem tickFrame_activity (ha : s.active = true) (hn : s.notify = true) (P : Nat) (L : Half) :
    ((tickFrame s P L).active = false ↔ haltHits s.halt (waveIndex (nextPhase s.phase P) P) = true) ∧
    (tickFrame s P L).notify = (tickFrame s P L).active ∧
    (tickFrame s P L).out = s.out ++ (if (tickFrame s P L).active then [] else [.stop, .start .null]) ++
      enableAll (frameDuty s (waveIndex (nextPhase s.phase P) P) L) := by
  by_cases hh : haltHits s.halt (waveIndex (nextPhase s.phase P) P) = true
  · rw [tickFrame_halts _ hh]
    exact ⟨iff_of_true rfl hh, rfl, rfl⟩
  · rw [tickFrame_goes_on _ hh]
    exact ⟨iff_of_false (by simp [ha]) hh, hn.trans ha.symm, by simp [ha]⟩

/-- Settles O35: the answer is the frame (`execTick_of`), whose halt check decides the activity and the deactivation's
commands (`tickFrame_activity`). -/
theorem tickHaltsExactlyAtItsTarget : Obligations.TickHaltsExactlyAtItsTarget := by
  intro s t hd hr h
  obtain ⟨ha, hn, hf⟩ := tickDeliverable_iff.mp hd
  obtain rfl := Host.Outcome.next.inj (h.symm.trans (execTick_of hf ha hn hr))
  obtain ⟨hactive, hnotify, hout⟩ := tickFrame_activity ha hn s.cfgPeriod (BitVec.ofNat 16 s.cfgLevel)
  obtain ⟨-, h1, h2⟩ := hr
  rw [tickFrame_phase]
  exact ⟨hactive.trans (haltHits_waveIndex h1 (nextPhase_lt s.phase h1 h2)), hnotify,
    tickFrame_halt _ _, _, hout⟩

/-! ## The channels of the reference backend (92_eei_decisions.md D24) -/

/-- Commands that each set one channel to the same value leave that value on the channels they name. -/
theorem Backend.channels_foldl {f : Channel → BackendCmd} {v : Option Half}
    (hf : ∀ (b : Backend) (k : Channel), (b.apply (f k)).channels = b.channels.set k.val v k.isLt) (ks : List Channel)
    (b : Backend) (c : Channel) :
    ((ks.map f).foldl Backend.apply b).channels[c] = if c ∈ ks then v else b.channels[c] := by
  induction ks generalizing b with
  | nil => rfl
  | cons k ks ih =>
    rw [List.map_cons, List.foldl_cons, ih, hf]
    by_cases hk : c = k
    · simp [hk]
    · have apart : k.val ≠ c.val := fun h => hk (Fin.ext h.symm)
      simp [hk, Vector.getElem_set_ne _ _ apart]

theorem mem_channels : ∀ c : Channel, c ∈ channels := by decide

theorem Backend.channels_enableAll (b : Backend) (d : Half) (c : Channel) :
    ((enableAll d).foldl Backend.apply b).channels[c] = some d :=
  (Backend.channels_foldl (f := fun c => .enableCh c d) (fun _ _ => rfl) _ b c).trans (if_pos (mem_channels c))

/-- The stream of a frame ends with its five commands. -/
theorem tickFrame_out_ends (P : Nat) (L : Half) :
    ∃ cs, (tickFrame s P L).out = cs ++ enableAll (frameDuty s (waveIndex (nextPhase s.phase P) P) L) := by
  by_cases hh : haltHits s.halt (waveIndex (nextPhase s.phase P) P) = true
  · exact ⟨_, congrArg State.out (tickFrame_halts L hh)⟩
  · exact ⟨_, congrArg State.out (tickFrame_goes_on L hh)⟩

/-- Settles O43: such a tick wrote its frame (`execTick_no_fault`), whose last five commands set every channel
(`Backend.channels_enableAll`). -/
theorem tickLeavesAllChannelsAtOneDuty : Obligations.TickLeavesAllChannelsAtOneDuty := by
  intro s t hd h ht c
  obtain ⟨hd', -⟩ | ⟨-, -, rfl⟩ := execTick_no_fault h ht
  · simp [hd] at hd'
  · obtain ⟨cs, hout⟩ := tickFrame_out_ends (s := s) s.cfgPeriod (BitVec.ofNat 16 s.cfgLevel)
    rw [State.backend, hout, Backend.run_append]
    exact Backend.channels_enableAll _ _ c

end Sys2Proof.Machine
end

section
/-! PROOFS. `SET_BODY` as a run (41_static_setter.md R126): in the three commands that run it, its micro-steps emit the
static level in order; the commands that begin and end with it follow. -/

namespace Sys2Proof.Machine

variable {s t u : State} {i : Instr} {ws : List Word} {rest : List Move}

theorem run_one (h : step s = .next t) : run 1 s = .next t := run_step h

theorem foregroundMoves_add (m n : Nat) : foregroundMoves (m + n) rest = foregroundMoves m (foregroundMoves n rest) := by
  simp only [foregroundMoves, List.replicate_add, List.append_assoc]

/-- An accepted command's first move. -/
theorem step_firstStep (ha : s.agenda = .foreground :: rest) (hf : s.fault = .none) (hs : s.seq = .idle)
    (hc : s.commands = encode i :: ws) (hp : i.port = .command) (had : admission i s = .none) :
    step s = .next (Instr.firstStep i { s with agenda := rest, commands := ws }) := by
  rw [step_accepts ha hf hs hc hp]
  refine exec_accepted (s := { s with agenda := rest, commands := ws }) hf hs hp ?_
  rw [← had]
  exact admission_congr rfl rfl i

/-! ## The body -/

/-- The foreground's move at a point `resume p` is the body's micro-step at `p`. -/
def RunsBody (resume : BodyPoint → Seq) (done : State → State) : Prop :=
  ∀ (s : State) (p : BodyPoint) (rest : List Move), s.fault = .none → s.seq = resume p →
    s.agenda = .foreground :: rest → step s = .next (setBody p resume done { s with agenda := rest })

theorem runsBody_set : RunsBody .set fun s => s.finish 0 := fun s p rest hf hs ha => by
  rw [step_in_progress ha hf (i := .set p.level) (by rw [hs]; rfl)]
  exact execSet_body (s := { s with agenda := rest }) hf hs

theorem runsBody_disable : RunsBody (fun p => .disable (.body p)) fun s => s.finish 0 := fun s p rest hf hs ha => by
  rw [step_in_progress ha hf (i := .disable) (by rw [hs]; rfl)]
  exact execDisable_body (s := { s with agenda := rest }) hf hs

theorem runsBody_initPorts : RunsBody (fun p => .initPorts (.body p)) fun s => s.goto (.initPorts .readBreathing) :=
  fun s p rest hf hs ha => by
    rw [step_in_progress ha hf (i := .initPorts) (by rw [hs]; rfl)]
    exact execInitPorts_body (s := { s with agenda := rest }) hf hs

/-- The disables of level 0 from a channel on (R121). -/
def disablesFrom (c : Channel) : List BackendCmd := (channels.filter fun k => c ≤ k).map .disableCh

theorem disablesFrom_succ : ∀ c : Channel, c ≠ 4 → disablesFrom c = .disableCh c :: disablesFrom (c + 1) := by decide

theorem channel_succ : ∀ c : Channel, c ≠ 4 → (c + 1).val = c.val + 1 := by decide

section
variable {resume : BodyPoint → Seq} {done : State → State} (hb : RunsBody resume done)
  (hd : ∀ (s : State) (q : Seq), done (s.goto q) = done s)
include hb hd

/-- The disables from a channel on, with the move of the last one. -/
theorem run_disables {c : Channel} {n : Nat} (hc : c.val + n = 4) (hf : s.fault = .none)
    (hs : s.seq = resume (.disable c)) (ha : s.agenda = foregroundMoves (n + 1) rest) :
    run (n + 1) s = .next (done { s with agenda := rest, out := s.out ++ disablesFrom c }) := by
  induction n generalizing s c with
  | zero =>
    obtain rfl : c = 4 := Fin.ext hc
    exact run_one (hb s _ _ hf hs ha)
  | succ n ih =>
    have hc4 : c ≠ 4 := by rintro rfl; simp at hc
    rw [run_step (hb s _ _ hf hs ha), setBody_disable hc4]
    refine Eq.trans (ih (by rw [channel_succ c hc4]; omega) hf rfl rfl) (congrArg _ ?_)
    rw [disablesFrom_succ c hc4, List.append_cons]
    exact hd { s with agenda := rest, out := s.out ++ [.disableCh c] ++ disablesFrom (c + 1) } (resume (.disable (c + 1)))

/-- The body as a whole, from an inactive block at its beginning. -/
theorem run_body {L : Half} (hf : s.fault = .none) (hac : s.active = false) (hs : s.seq = resume (BodyPoint.first L))
    (ha : s.agenda = foregroundMoves (bodySteps L) rest) :
    run (bodySteps L) s = .next (done { s with agenda := rest, out := s.out ++ settled s.bl L }) := by
  by_cases hL : L = 0
  · subst hL
    exact run_disables hb hd (c := 0) (n := 4) rfl hf hs ha
  · rw [BodyPoint.first_of_ne_zero hL] at hs
    rw [bodySteps, if_neg hL] at ha ⊢
    rw [settled, if_neg hL, ← staticFrame_inactive hac]
    exact run_one (hb s _ _ hf hs ha)

end

/-! ## The commands with a body -/

/-- Settles O21: the acceptance, then the body (`run_body`). -/
theorem setRunsToItsEnd : Obligations.SetRunsToItsEnd := by
  intro s L ws rest hf hs hi hac hL hc ha
  rw [foregroundMoves_add] at ha
  have accepted := step_firstStep ha hf hs hc rfl (by simp [admission, hi, hL])
  rw [run_add _ (run_one accepted)]
  refine Eq.trans (run_body runsBody_set (fun _ _ => rfl) hf hac rfl rfl) ?_
  rw [hs]
  rfl

/-- The foreground's move in the middle of a command, told from the micro-step. -/
theorem step_micro {r : Result} (ha : s.agenda = .foreground :: rest) (hf : s.fault = .none) (hi : s.seq.instr = some i)
    (he : exec i { s with agenda := rest } = r) : step s = r :=
  (step_in_progress ha hf hi).trans he

theorem step_disable_deactivate (ha : s.agenda = .foreground :: rest) (hf : s.fault = .none)
    (hs : s.seq = .disable .deactivate) :
    step s = .next (({ s with agenda := rest } : State).deactivate.goto (.disable .readLevel)) :=
  step_micro ha hf (i := .disable) (by rw [hs]; rfl) (execDisable_deactivate (s := { s with agenda := rest }) hf hs)

theorem step_disable_readLevel (ha : s.agenda = .foreground :: rest) (hf : s.fault = .none)
    (hs : s.seq = .disable .readLevel) (hl : s.cfgLevel ≤ s.bl.toNat) :
    step s = .next (({ s with agenda := rest } : State).goto
      (.disable (.body (BodyPoint.first (BitVec.ofNat 16 s.cfgLevel))))) :=
  step_micro ha hf (i := .disable) (by rw [hs]; rfl)
    ((execDisable_readLevel (s := { s with agenda := rest }) hf hs).trans (withLevel_of _ hl))

/-- `DISABLE` as a whole, the store unchanged meanwhile (R146). -/
theorem run_disable (hf : s.fault = .none) (hs : s.seq = .idle) (hi : s.init = true) (hl : s.cfgLevel ≤ s.bl.toNat)
    (hc : s.commands = encode .disable :: ws)
    (ha : s.agenda = foregroundMoves (3 + bodySteps (BitVec.ofNat 16 s.cfgLevel)) rest) :
    run (3 + bodySteps (BitVec.ofNat 16 s.cfgLevel)) s = .next { s with
      active := false, notify := false, commands := ws, agenda := rest
      out := s.out ++ [.stop, .start .null] ++ settled s.bl (BitVec.ofNat 16 s.cfgLevel)
      responses := s.responses ++ [0] } := by
  rw [foregroundMoves_add] at ha
  rw [show 3 + bodySteps (BitVec.ofNat 16 s.cfgLevel) = bodySteps (BitVec.ofNat 16 s.cfgLevel) + 1 + 1 + 1 by omega,
    run_step (step_firstStep ha hf hs hc rfl (by simp [admission, hi]))]
  refine Eq.trans (run_step (step_disable_deactivate rfl hf rfl)) ?_
  refine Eq.trans (run_step (step_disable_readLevel rfl hf rfl hl)) ?_
  refine Eq.trans (run_body runsBody_disable (fun _ _ => rfl) hf rfl rfl rfl) ?_
  rw [hs]
  rfl

/-- Settles O29: `run_disable` leaves the block idle, inactive and about to issue `SET L`, which runs to its end. -/
theorem disableThenSetRestoresTheStaticLevel : Obligations.DisableThenSetRestoresTheStaticLevel := by
  intro s L ws rest hf hs hi hl hL hc L₀ n ha
  rw [foregroundMoves_add] at ha
  rw [run_add _ (run_disable hf hs hi hl hc ha)]
  refine Eq.trans (setRunsToItsEnd _ L ws rest hf hs hi rfl hL rfl rfl) ?_
  rw [List.append_assoc s.responses]
  rfl

theorem step_initPorts_readLevel (ha : s.agenda = .foreground :: rest) (hf : s.fault = .none)
    (hs : s.seq = .initPorts .readLevel) (hl : s.cfgLevel ≤ s.bl.toNat) :
    step s = .next (({ s with agenda := rest } : State).goto
      (.initPorts (.body (BodyPoint.first (BitVec.ofNat 16 s.cfgLevel))))) :=
  step_micro ha hf (i := .initPorts) (by rw [hs]; rfl)
    ((execInitPorts_readLevel (s := { s with agenda := rest }) hf hs).trans (withLevel_of _ hl))

theorem step_initPorts_readBreathing (ha : s.agenda = .foreground :: rest) (hf : s.fault = .none)
    (hs : s.seq = .initPorts .readBreathing) :
    step s = .next (if s.cfgBreathing then ({ s with agenda := rest } : State).goto (.initPorts (.enable .phase))
      else ({ s with agenda := rest } : State).finish 0) :=
  step_micro ha hf (i := .initPorts) (by rw [hs]; rfl)
    (execInitPorts_readBreathing (s := { s with agenda := rest }) hf hs)

theorem step_initPorts_enable {p : EnablePoint} (ha : s.agenda = .foreground :: rest) (hf : s.fault = .none)
    (hs : s.seq = .initPorts (.enable p)) :
    step s = .next (enableBody p (fun p => .initPorts (.enable p)) { s with agenda := rest }) :=
  step_micro ha hf (i := .initPorts) (by rw [hs]; rfl)
    (execInitPorts_enable (s := { s with agenda := rest }) hf hs)

/-- `INIT_PORTS` up to its breathing read (R125): the start, the level read, the body. -/
theorem run_initPorts_static (hf : s.fault = .none) (hs : s.seq = .idle) (hi : s.init = false)
    (hl : s.cfgLevel ≤ s.bl.toNat) (hc : s.commands = encode .initPorts :: ws)
    (ha : s.agenda = foregroundMoves (2 + bodySteps (BitVec.ofNat 16 s.cfgLevel)) rest) :
    run (2 + bodySteps (BitVec.ofNat 16 s.cfgLevel)) s = .next { s with
      init := true, active := false, notify := false, seq := .initPorts .readBreathing, commands := ws, agenda := rest
      out := s.out ++ [.start .null] ++ settled s.bl (BitVec.ofNat 16 s.cfgLevel) } := by
  rw [foregroundMoves_add] at ha
  rw [show 2 + bodySteps (BitVec.ofNat 16 s.cfgLevel) = bodySteps (BitVec.ofNat 16 s.cfgLevel) + 1 + 1 by omega,
    run_step (step_firstStep ha hf hs hc rfl (by simp [admission, hi]))]
  refine Eq.trans (run_step (step_initPorts_readLevel rfl hf rfl hl)) ?_
  exact Eq.trans (run_body runsBody_initPorts (fun _ _ => rfl) hf rfl rfl rfl) rfl

/-- The rest of `INIT_PORTS` when the store does not ask for breathing (R125). -/
theorem run_initPorts_ends (hf : s.fault = .none) (hs : s.seq = .initPorts .readBreathing)
    (hb : s.cfgBreathing = false) (ha : s.agenda = foregroundMoves 1 rest) :
    run 1 s = .next (({ s with agenda := rest } : State).finish 0) := by
  have read := step_initPorts_readBreathing ha hf hs
  rw [if_neg (by simp [hb])] at read
  exact run_one read

/-- The rest of `INIT_PORTS` when the store asks for breathing (R125, R143). -/
theorem run_initPorts_breathes (hf : s.fault = .none) (hs : s.seq = .initPorts .readBreathing)
    (hb : s.cfgBreathing = true) (ha : s.agenda = foregroundMoves 4 rest) :
    run 4 s = .next ((({ s with agenda := rest } : State).setPhase 0).setHalt .none |>.arm.finish 0) := by
  have read := step_initPorts_readBreathing ha hf hs
  rw [if_pos hb] at read
  refine Eq.trans (run_step read) ?_
  refine Eq.trans (run_step (step_initPorts_enable rfl hf rfl)) ?_
  refine Eq.trans (run_step (step_initPorts_enable rfl hf rfl)) ?_
  exact Eq.trans (run_one (step_initPorts_enable rfl hf rfl)) rfl

/-- Settles O24: up to the breathing read by `run_initPorts_static`; then `run_initPorts_ends` or
`run_initPorts_breathes`. -/
theorem initPortsRunsToItsEnd : Obligations.InitPortsRunsToItsEnd := by
  intro s ws rest hf hs hi hl hc L n ha
  cases hb : s.cfgBreathing with
  | false =>
    have hn : n = 2 + bodySteps L + 1 := by simp [n, hb]; omega
    rw [hn, foregroundMoves_add] at ha
    rw [hn, run_add _ (run_initPorts_static hf hs hi hl hc ha)]
    refine Eq.trans (run_initPorts_ends hf rfl hb rfl) ?_
    simp [State.finish, hs, hb, L]
  | true =>
    have hn : n = 2 + bodySteps L + 4 := by simp [n, hb]; omega
    rw [hn, foregroundMoves_add] at ha
    rw [hn, run_add _ (run_initPorts_static hf hs hi hl hc ha)]
    refine Eq.trans (run_initPorts_breathes hf rfl hb rfl) ?_
    simp [State.finish, State.arm, State.setPhase, State.setHalt, hs, hb, L]

/-- Settles O22: the tick's step, which without a halt mode goes on, then the disables left (`run_disables`); on the
reference backend the frame sets every channel and the disables those from `k` on (`Backend.channels_foldl`). -/
theorem tickSplitsSetZero : Obligations.TickSplitsSetZero := by
  intro s k rest hf hs hac hn hh hr ha
  obtain ⟨n, hn4⟩ : ∃ n, k.val + n = 4 := ⟨4 - k.val, by have := k.isLt; omega⟩
  have frame := (step_frame ha hf hac hn hr).trans (congrArg _ (tickFrame_goes_on _ (by simp [hh, haltHits])))
  rw [show 5 - k.val = n + 1 by omega] at frame
  rw [show 6 - k.val = n + 1 + 1 by omega, run_step frame]
  refine ⟨_, _, run_disables runsBody_set (fun _ _ => rfl) hn4 hf hs rfl, rfl, hac, rfl, rfl, fun c => ?_⟩
  rw [State.backend, State.finish_out, Backend.run_append, Backend.run_append, disablesFrom,
    Backend.channels_foldl (v := none) (fun _ _ => rfl), Backend.channels_enableAll]
  by_cases hck : c < k
  · rw [if_pos hck, if_neg (by simp [hck])]
  · rw [if_neg hck, if_pos (by simp [mem_channels, not_lt.mp hck])]

end Sys2Proof.Machine
end

section
/-! PROOFS. Ticks in a row (43_periodic_tick.md R180, R181): a full cycle brings the phase back; a pulse at level 0
counts dark frames up to index 64. -/

namespace Sys2Proof.Machine

variable {s t : State} {rest : List Move}

/-- Settles O40: without a halt mode every tick is delivered (`run_ticks`), and a full cycle of them is 0 modulo
`256 * P`. -/
theorem phaseReturnsAfterAFullCycle : Obligations.PhaseReturnsAfterAFullCycle := by
  intro s rest hf ha hn hh hr hlt hagenda
  obtain ⟨ph, a, b, m, cs, hrun, -, hphase, -, hall⟩ := run_ticks _ hf (fun _ _ => hr) hagenda
  obtain ⟨rfl, rfl, -, -⟩ := hall (tickDeliverable_iff.mpr ⟨ha, hn, hf⟩) hh
  refine ⟨_, hrun, BitVec.eq_of_toNat_eq ?_, rfl, hf, rfl, rfl⟩
  rw [hphase hlt, Nat.add_mod_right, Nat.mod_eq_of_lt hlt]

/-! ## The dark pulse -/

theorem tickMoves_add (m n : Nat) : tickMoves (m + n) rest = tickMoves m (tickMoves n rest) := by
  simp only [tickMoves, List.replicate_add, List.append_assoc]

/-- The commands of `n` dark frames. -/
def darkFrames (n : Nat) : List BackendCmd := (List.replicate n (enableAll 0)).flatten

theorem darkFrames_succ (n : Nat) : darkFrames (n + 1) = enableAll 0 ++ darkFrames n := rfl

theorem darkFrames_length (n : Nat) : (darkFrames n).length = 5 * n := by
  induction n with
  | zero => rfl
  | succ n ih =>
    rw [darkFrames_succ, List.length_append, ih, show (enableAll 0).length = 5 from rfl]
    omega

theorem darkFrames_dark {n : Nat} {c : Channel} {d : Half} (h : .enableCh c d ∈ darkFrames n) : d = 0 := by
  obtain ⟨l, hl, hc⟩ := List.mem_flatten.mp h
  rw [List.eq_of_mem_replicate hl] at hc
  exact enableCh_mem_enableAll hc

theorem nextPhase_below {phase : Half} {P : Nat} (h1 : 1 ≤ P) (h2 : P ≤ 256) (h : phase.toNat + 1 < 256 * P) :
    (nextPhase phase P).toNat = phase.toNat + 1 := by
  rw [nextPhase_toNat phase h1 h2, Nat.mod_eq_of_lt (by omega)]

/-- A pulse at level 0, its inputs within range: what every dark tick needs. -/
structure DarkPulse (s : State) : Prop where
  fault : s.fault = .none
  active : s.active = true
  notify : s.notify = true
  halt : s.halt = .atOn
  level : s.cfgLevel = 0
  period_pos : 1 ≤ s.cfgPeriod
  period_le : s.cfgPeriod ≤ 256

/-- The frame of a dark tick. -/
theorem step_darkFrame (h : DarkPulse s) (ha : s.agenda = .event tickWord :: rest) :
    step s = .next (tickFrame { s with agenda := rest } s.cfgPeriod 0) := by
  rw [step_frame ha h.fault h.active h.notify ⟨by rw [h.level]; exact Nat.zero_le _, h.period_pos, h.period_le⟩, h.level]
  rfl

/-- Below `128 * P` a dark tick does not halt: its index is below 64. -/
theorem step_darkTick (h : DarkPulse s) (hlt : s.phase.toNat + 1 < 128 * s.cfgPeriod)
    (ha : s.agenda = .event tickWord :: rest) :
    step s = .next { s with
      phase := nextPhase s.phase s.cfgPeriod, agenda := rest, out := s.out ++ enableAll 0 } := by
  have hnext := nextPhase_below (phase := s.phase) h.period_pos h.period_le (by omega)
  have below : ¬ haltHits s.halt (waveIndex (nextPhase s.phase s.cfgPeriod) s.cfgPeriod) = true := by
    have hpos := h.period_pos
    rw [haltHits_waveIndex hpos (nextPhase_lt _ hpos h.period_le), hnext, Nat.div_eq_iff (by omega), h.halt]
    simp
    omega
  rw [step_darkFrame h ha, tickFrame_goes_on (s := { s with agenda := rest }) 0 below, frameDuty_zero]

/-- The tick that gives a dark pulse the phase `128 * P` halts it: its index is 64. -/
theorem step_darkHalt (h : DarkPulse s) (hphase : s.phase.toNat + 1 = 128 * s.cfgPeriod)
    (ha : s.agenda = .event tickWord :: rest) :
    step s = .next { s with
      phase := nextPhase s.phase s.cfgPeriod, active := false, notify := false, agenda := rest
      out := s.out ++ [.stop, .start .null] ++ enableAll 0 } := by
  have hpos := h.period_pos
  have hnext := nextPhase_below (phase := s.phase) hpos h.period_le (by omega)
  have hits : haltHits s.halt (waveIndex (nextPhase s.phase s.cfgPeriod) s.cfgPeriod) = true := by
    rw [haltHits_waveIndex hpos (nextPhase_lt _ hpos h.period_le), hnext, hphase, Nat.div_eq_iff (by omega)]
    exact .inl ⟨h.halt, by omega, by omega⟩
  rw [step_darkFrame h ha, tickFrame_halts (s := { s with agenda := rest }) 0 hits, frameDuty_zero]

/-- Ticks that keep the phase below `128 * P`. -/
theorem run_darkTicks (n : Nat) (h : DarkPulse s) (hlt : s.phase.toNat + n < 128 * s.cfgPeriod)
    (ha : s.agenda = tickMoves n rest) :
    ∃ ph : Half, ph.toNat = s.phase.toNat + n ∧
      run n s = .next { s with phase := ph, agenda := rest, out := s.out ++ darkFrames n } := by
  induction n generalizing s with
  | zero => exact ⟨s.phase, rfl, by rw [run_zero, ← show s.agenda = rest from ha]; simp [darkFrames]⟩
  | succ n ih =>
    have hnext := nextPhase_below (phase := s.phase) h.period_pos h.period_le (by omega)
    obtain ⟨ph, hph, hrun⟩ := ih (s := { s with
      phase := nextPhase s.phase s.cfgPeriod, agenda := tickMoves n rest, out := s.out ++ enableAll 0 })
      ⟨h.fault, h.active, h.notify, h.halt, h.level, h.period_pos, h.period_le⟩ (by simp only [hnext]; omega) rfl
    refine ⟨ph, by rw [hph, hnext]; omega, (run_step (step_darkTick h (by omega) ha)).trans (hrun.trans ?_)⟩
    rw [darkFrames_succ, List.append_assoc]

/-- Settles O41: fewer than `128 * P` ticks are dark frames without a halt (`run_darkTicks`), the last halts
(`step_darkHalt`). -/
theorem darkPulseHaltsOnTick128P : Obligations.DarkPulseHaltsOnTick128P := by
  intro s rest hf ha hn hh hp hl h1 h2 hagenda
  have dark : DarkPulse s := ⟨hf, ha, hn, hh, hl, h1, h2⟩
  have zero : s.phase.toNat = 0 := by rw [hp]; rfl
  constructor
  · intro n h
    rw [show 128 * s.cfgPeriod = n + (128 * s.cfgPeriod - n) by omega, tickMoves_add] at hagenda
    obtain ⟨ph, -, hrun⟩ := run_darkTicks n dark (by omega) hagenda
    exact ⟨_, hrun, ha⟩
  · obtain ⟨n, hn128⟩ : ∃ n, 128 * s.cfgPeriod = n + 1 := ⟨128 * s.cfgPeriod - 1, by omega⟩
    rw [hn128, tickMoves_add] at hagenda
    obtain ⟨ph, hph, hrun⟩ := run_darkTicks n dark (by omega) hagenda
    have hphase : ph.toNat + 1 = 128 * s.cfgPeriod := by omega
    have last := step_darkHalt (s := { s with phase := ph, agenda := tickMoves 1 rest, out := s.out ++ darkFrames n })
      ⟨hf, ha, hn, hh, hl, h1, h2⟩ hphase rfl
    rw [hn128, run_add 1 hrun]
    refine ⟨_, darkFrames n ++ ([.stop, .start .null] ++ enableAll 0), run_one last, rfl, rfl, ?_, ?_, ?_, fun c d h => ?_⟩
    · exact (nextPhase_below (phase := ph) h1 h2 (by omega)).trans (by omega)
    · simp only [List.append_assoc]
    · rw [List.length_append, darkFrames_length, show ([BackendCmd.stop, .start .null] ++ enableAll 0).length = 7 from rfl]
      omega
    · obtain h | h := List.mem_append.mp h
      · exact darkFrames_dark h
      · exact enableCh_mem_enableAll (by simpa using h)

end Sys2Proof.Machine
end

section
/-! PROOFS. `ENABLE` and `PULSE_ONCE` as runs with ticks between their micro-steps (42_breathing_fsm.md R143, R144;
70_reset_and_hazards.md R244): both store a phase, then their halt mode, then arm, so one run serves both. -/

namespace Sys2Proof.Machine

variable {s t u : State} {i : Instr} {ws : List Word} {rest : List Move} {q₀ q₁ q₂ : Seq} {h : HaltMode} {v : Half}

/-- A command that restarts the animation: accepted to `q₀`, where it stores a phase; at `q₁` it stores its halt mode
`h`, at `q₂` it arms. -/
structure Restarts (i : Instr) (q₀ q₁ q₂ : Seq) (h : HaltMode) : Prop where
  command : i.port = .command
  accepted : ∀ s, Instr.firstStep i s = s.goto q₀
  instr₀ : q₀.instr = some i
  instr₁ : q₁.instr = some i
  instr₂ : q₂.instr = some i
  halts : ∀ s : State, s.fault = .none → s.seq = q₁ → exec i s = .next ((s.setHalt h).goto q₂)
  arms : ∀ s : State, s.fault = .none → s.seq = q₂ → exec i s = .next (s.arm.finish 0)

theorem restarts_enable : Restarts .enable (.enable .phase) (.enable .halt) (.enable .arm) .none where
  command := rfl
  accepted _ := rfl
  instr₀ := rfl
  instr₁ := rfl
  instr₂ := rfl
  halts _ hf hs := execEnable_body hf hs
  arms _ hf hs := execEnable_body hf hs

theorem restarts_pulseOnce :
    Restarts .pulseOnce (.pulseOnce .readLevel) (.pulseOnce .halt) (.pulseOnce .arm) .atOn where
  command := rfl
  accepted _ := rfl
  instr₀ := rfl
  instr₁ := rfl
  instr₂ := rfl
  halts _ hf hs := execPulseOnce_halt hf hs
  arms _ hf hs := execPulseOnce_arm hf hs

/-- The ticks' inputs are within range where a tick is delivered: what `n` ticks from `s` on need. -/
def TicksInRange (s : State) (n : Nat) : Prop := s.tickDeliverable = true → n ≠ 0 → s.storeInRange

/-- What `k` ticks from `s` on leave, `m` of them delivered: the phase `ph`, the activity `a`, the notification `b` and
the commands `cs`; under `u` no halt is asked for meanwhile. -/
structure Ticked (s : State) (u : Prop) (k : Nat) (ph : Half) (a b : Bool) (m : Nat) (cs : List BackendCmd) : Prop where
  le : m ≤ k
  phase : s.phase.toNat < 256 * s.cfgPeriod → ph.toNat = (s.phase.toNat + m) % (256 * s.cfgPeriod)
  none : s.tickDeliverable = false ∨ k = 0 → m = 0 ∧ ph = s.phase ∧ a = s.active ∧ b = s.notify ∧ cs = []
  all : s.tickDeliverable = true → u → m = k ∧ a = true ∧ b = true ∧ cs.length = 5 * k

section
variable {p : Prop} {k₁ k₂ m₁ m₂ : Nat} {ph₁ ph₂ : Half} {a₁ a₂ b₁ b₂ : Bool} {cs₁ cs₂ : List BackendCmd}

/-- Where no tick is delivered, none becomes deliverable. -/
theorem Ticked.still_undeliverable (w : Ticked s p k₁ ph₁ a₁ b₁ m₁ cs₁) (hd : s.tickDeliverable = false)
    (ha : t.active = a₁) (hn : t.notify = b₁) (hf : t.fault = s.fault) : t.tickDeliverable = false := by
  obtain ⟨-, -, hactive, hnotify, -⟩ := w.none (.inl hd)
  rw [← hd, State.tickDeliverable, State.tickDeliverable, ha, hn, hf, hactive, hnotify]

/-- The store's range is asked for where ticks are delivered after ticks as it is before them. -/
theorem Ticked.inRange (w : Ticked s p k₁ ph₁ a₁ b₁ m₁ cs₁) (hr : TicksInRange s (k₁ + k₂)) (ha : t.active = a₁)
    (hn : t.notify = b₁) (hf : t.fault = s.fault) (hl : t.cfgLevel = s.cfgLevel) (hp : t.cfgPeriod = s.cfgPeriod)
    (hb : t.bl = s.bl) : TicksInRange t k₂ := by
  intro hd hk
  cases hs : s.tickDeliverable with
  | false => simp [w.still_undeliverable hs ha hn hf] at hd
  | true =>
    rw [State.storeInRange, hl, hp, hb]
    exact hr hs (by omega)

/-- Ticks, a micro-step that keeps what they left, and ticks. -/
theorem Ticked.trans {p₁ p₂ : Prop} (w₁ : Ticked s p₁ k₁ ph₁ a₁ b₁ m₁ cs₁) (w₂ : Ticked t p₂ k₂ ph₂ a₂ b₂ m₂ cs₂)
    (hph : t.phase = ph₁) (ha : t.active = a₁) (hn : t.notify = b₁) (hf : t.fault = s.fault) (hs : s.fault = .none)
    (hp : t.cfgPeriod = s.cfgPeriod) : Ticked s (p₁ ∧ p₂) (k₁ + k₂) ph₂ a₂ b₂ (m₁ + m₂) (cs₁ ++ cs₂) where
  le := Nat.add_le_add w₁.le w₂.le
  phase hlt := by
    have first := w₁.phase hlt
    have second := w₂.phase (by rw [hph, hp, first]; exact Nat.mod_lt _ (by omega))
    rw [second, hph, hp, first, Nat.mod_add_mod, Nat.add_assoc]
  none hd := by
    obtain ⟨rfl, hph₁, ha₁, hb₁, rfl⟩ := w₁.none (hd.imp_right fun h => by omega)
    obtain ⟨rfl, hph₂, ha₂, hb₂, rfl⟩ :=
      w₂.none (hd.imp (fun h => w₁.still_undeliverable h ha hn hf) fun h => by omega)
    exact ⟨rfl, hph₂.trans (hph.trans hph₁), ha₂.trans (ha.trans ha₁), hb₂.trans (hn.trans hb₁), rfl⟩
  all hd hu := by
    obtain ⟨rfl, ha₁, hb₁, hlen₁⟩ := w₁.all hd hu.1
    obtain ⟨rfl, ha₂, hb₂, hlen₂⟩ :=
      w₂.all (tickDeliverable_iff.mpr ⟨ha.trans ha₁, hn.trans hb₁, hf.trans hs⟩) hu.2
    exact ⟨rfl, ha₂, hb₂, by rw [List.length_append, hlen₁, hlen₂]; omega⟩

end

/-- Ticks and then a micro-step of the foreground. -/
theorem run_ticks_then (k : Nat) (hf : s.fault = .none) (hr : TicksInRange s k)
    (ha : s.agenda = tickMoves k (.foreground :: rest)) (hi : s.seq.instr = some i) :
    ∃ (ph : Half) (a b : Bool) (m : Nat) (cs : List BackendCmd), Ticked s (s.halt = .none) k ph a b m cs ∧
      ∀ t, exec i { s with phase := ph, active := a, notify := b, agenda := rest, out := s.out ++ cs } = .next t →
        run (k + 1) s = .next t := by
  obtain ⟨ph, a, b, m, cs, hrun, hm, hph, hnone, hall⟩ := run_ticks k hf hr ha
  refine ⟨ph, a, b, m, cs, ⟨hm, hph, hnone, hall⟩, fun t ht => ?_⟩
  rw [run_add 1 hrun]
  exact run_one (step_micro rfl hf hi ht)

/-- A restart from its halt store on, with `k₁` and `k₂` ticks before its last two micro-steps. -/
theorem Restarts.run_from_halt (r : Restarts i q₀ q₁ q₂ h) (k₁ k₂ : Nat) (hf : s.fault = .none) (hs : s.seq = q₁)
    (hr : TicksInRange s (k₁ + k₂))
    (ha : s.agenda = tickMoves k₁ (.foreground :: tickMoves k₂ (.foreground :: rest))) :
    ∃ (ph : Half) (a b : Bool) (m : Nat) (cs : List BackendCmd),
      Ticked s (s.halt = .none ∧ h = .none) (k₁ + k₂) ph a b m cs ∧
      run (k₁ + 1 + (k₂ + 1)) s = .next { s with
        phase := ph, halt := h, active := true, notify := true, seq := .idle, agenda := rest
        out := s.out ++ cs ++ [.stop, .start .tick, .enableNotify], responses := s.responses ++ [0] } := by
  obtain ⟨ph₁, a₁, b₁, m₁, cs₁, w₁, hrun₁⟩ := run_ticks_then k₁ hf (fun hd hk => hr hd (by omega)) ha (hs ▸ r.instr₁)
  have halted := hrun₁ _ (r.halts { s with
    phase := ph₁, active := a₁, notify := b₁, agenda := _, out := s.out ++ cs₁ } hf hs)
  obtain ⟨ph₂, a₂, b₂, m₂, cs₂, w₂, hrun₂⟩ := run_ticks_then (s := ({ s with
    phase := ph₁, active := a₁, notify := b₁, agenda := tickMoves k₂ (.foreground :: rest)
    out := s.out ++ cs₁ } : State).setHalt h |>.goto q₂) k₂ hf (w₁.inRange hr rfl rfl rfl rfl rfl rfl) rfl r.instr₂
  refine ⟨ph₂, a₂, b₂, m₁ + m₂, cs₁ ++ cs₂, w₁.trans w₂ rfl rfl rfl rfl hf rfl, ?_⟩
  rw [run_add (k₂ + 1) halted, hrun₂ _ (r.arms _ hf rfl), ← List.append_assoc s.out]
  rfl

/-- A restart as a whole, its phase store writing `v`, with `k₀`, `k₁` and `k₂` ticks at its interleaving points. -/
theorem Restarts.run_ticksBetween (r : Restarts i q₀ q₁ q₂ h) (k₀ k₁ k₂ : Nat) (hf : s.fault = .none)
    (hs : s.seq = .idle) (hadm : admission i s = .none)
    (hstore : ∀ u : State, u.fault = .none → u.seq = q₀ → u.cfgLevel = s.cfgLevel → u.cfgPeriod = s.cfgPeriod →
      u.bl = s.bl → exec i u = .next ((u.setPhase v).goto q₁))
    (hv : v = 0 ∨ v.toNat < 256 * s.cfgPeriod) (hr : TicksInRange s (k₀ + k₁ + k₂)) (hc : s.commands = encode i :: ws)
    (ha : s.agenda = ticksBetween k₀ k₁ k₂ rest) :
    ∃ (ph : Half) (m : Nat) (cs : List BackendCmd),
      run (4 + k₀ + k₁ + k₂) s = .next { s with
        phase := ph, halt := h, active := true, notify := true, commands := ws, agenda := rest
        out := s.out ++ cs ++ [.stop, .start .tick, .enableNotify], responses := s.responses ++ [0] } ∧
      m ≤ k₁ + k₂ ∧ ph.toNat = (v.toNat + m) % (256 * s.cfgPeriod) ∧
      (s.tickDeliverable = false ∨ k₀ + k₁ + k₂ = 0 → m = 0 ∧ cs = []) ∧
      (s.tickDeliverable = true → s.halt = .none → h = .none → m = k₁ + k₂ ∧ cs.length = 5 * (k₀ + k₁ + k₂)) := by
  have accepted := run_one (step_firstStep ha hf hs hc r.command hadm)
  rw [r.accepted] at accepted
  obtain ⟨ph₀, a₀, b₀, m₀, cs₀, w₀, hrun₀⟩ := run_ticks_then (s := ({ s with
    commands := ws
    agenda := tickMoves k₀ (.foreground :: tickMoves k₁ (.foreground :: tickMoves k₂ (.foreground :: rest))) } :
      State).goto q₀) k₀ hf (fun hd hk => hr hd (by omega)) rfl r.instr₀
  have stored := hrun₀ _ (hstore _ hf rfl rfl rfl rfl)
  obtain ⟨ph, a, b, m, cs, w, hrun⟩ := r.run_from_halt (s := ({ s with
    commands := ws, phase := ph₀, active := a₀, notify := b₀, out := s.out ++ cs₀
    agenda := tickMoves k₁ (.foreground :: tickMoves k₂ (.foreground :: rest)) } : State).setPhase v |>.goto q₁)
    k₁ k₂ hf rfl (w₀.inRange (fun hd hk => hr hd (by omega)) rfl rfl rfl rfl rfl rfl) rfl
  have none (hd : s.tickDeliverable = false ∨ k₀ + k₁ + k₂ = 0) : m = 0 ∧ ph = v ∧ cs₀ ++ cs = [] := by
    obtain ⟨-, -, -, -, rfl⟩ := w₀.none (hd.imp_right fun h => by omega)
    obtain ⟨hm, hph, -, -, rfl⟩ :=
      w.none (hd.imp (fun h => w₀.still_undeliverable h rfl rfl rfl) fun h => by omega)
    exact ⟨hm, hph, rfl⟩
  refine ⟨ph, m, cs₀ ++ cs, ?_, w.le, ?_, fun hd => ⟨(none hd).1, (none hd).2.2⟩, fun hd hh hu => ?_⟩
  · rw [show 4 + k₀ + k₁ + k₂ = 1 + ((k₀ + 1) + (k₁ + 1 + (k₂ + 1))) by omega, run_add _ accepted, run_add _ stored]
    refine Eq.trans hrun ?_
    rw [← List.append_assoc s.out, hs]
    rfl
  · by_cases hlt : v.toNat < 256 * s.cfgPeriod
    · exact w.phase hlt
    · obtain rfl := hv.resolve_right hlt
      have zero : s.cfgPeriod = 0 := by simpa using hlt
      have idle : s.tickDeliverable = false ∨ k₀ + k₁ + k₂ = 0 := by
        by_contra hno
        obtain ⟨hd, hk⟩ := not_or.mp hno
        obtain ⟨-, h1, -⟩ := hr (by simpa using hd) hk
        omega
      obtain ⟨rfl, rfl, -⟩ := none idle
      rw [zero]
      rfl
  · obtain ⟨-, ha₀, hb₀, hlen₀⟩ := w₀.all hd hh
    obtain ⟨hm, -, -, hlen⟩ := w.all (tickDeliverable_iff.mpr ⟨ha₀, hb₀, hf⟩) ⟨hh, hu⟩
    exact ⟨hm, by rw [List.length_append, hlen₀, hlen]; omega⟩

/-- Settles O26: `ENABLE` is a restart that stores the phase 0. -/
theorem enableRunsToItsEnd : Obligations.EnableRunsToItsEnd := by
  intro s ws rest k₀ k₁ k₂ hf hs hi hr hc ha
  obtain ⟨ph, m, cs, hrun, hm, hph, hnone, hall⟩ := restarts_enable.run_ticksBetween (v := 0) k₀ k₁ k₂ hf hs
    (by simp [admission, hi]) (fun u hf hs _ _ _ => execEnable_body hf hs) (.inl rfl) hr hc ha
  exact ⟨ph, m, cs, hrun, hm, by simpa using hph, hnone, fun hd hh => hall hd hh rfl⟩

/-- The phase `PULSE_ONCE` stores, from the inputs of a state (R144). -/
def State.pulseStore (s : State) : Half := if s.cfgLevel = 0 then 0 else pulsePhase s.cfgPeriod

theorem pulseStore_toNat (hr : s.cfgLevel ≠ 0 → s.storeInRange) :
    s.pulseStore.toNat = if s.cfgLevel = 0 then 0 else 128 * s.cfgPeriod := by
  unfold State.pulseStore
  split
  · rfl
  · exact pulsePhase_toNat (hr ‹_›).2.2

theorem execPulseOnce_stores (hf : s.fault = .none) (hs : s.seq = .pulseOnce .readLevel)
    (hr : s.cfgLevel ≠ 0 → s.storeInRange) :
    execPulseOnce s = .next ((s.setPhase s.pulseStore).goto (.pulseOnce .halt)) := by
  rw [execPulseOnce_readLevel hf hs, State.pulseStore]
  by_cases hl : s.cfgLevel = 0
  · rw [if_pos hl, pulseStart_dark hl]
  · rw [if_neg hl, pulseStart_bright hl (hr hl)]

/-- `PULSE_ONCE` as a restart. -/
theorem run_pulseOnce (k₀ k₁ k₂ : Nat) (hf : s.fault = .none) (hs : s.seq = .idle) (hi : s.init = true)
    (hr : s.cfgLevel ≠ 0 → s.storeInRange) (ht : TicksInRange s (k₀ + k₁ + k₂))
    (hc : s.commands = encode .pulseOnce :: ws) (ha : s.agenda = ticksBetween k₀ k₁ k₂ rest) :
    ∃ (ph : Half) (m : Nat) (cs : List BackendCmd),
      run (4 + k₀ + k₁ + k₂) s = .next { s with
        phase := ph, halt := .atOn, active := true, notify := true, commands := ws, agenda := rest
        out := s.out ++ cs ++ [.stop, .start .tick, .enableNotify], responses := s.responses ++ [0] } ∧
      m ≤ k₁ + k₂ ∧
      ph.toNat = ((if s.cfgLevel = 0 then 0 else 128 * s.cfgPeriod) + m) % (256 * s.cfgPeriod) ∧
      (s.tickDeliverable = false ∨ k₀ + k₁ + k₂ = 0 → m = 0 ∧ cs = []) := by
  have store (u : State) (hf : u.fault = .none) (hs : u.seq = .pulseOnce .readLevel) (hl : u.cfgLevel = s.cfgLevel)
      (hp : u.cfgPeriod = s.cfgPeriod) (hb : u.bl = s.bl) :
      exec .pulseOnce u = .next ((u.setPhase s.pulseStore).goto (.pulseOnce .halt)) := by
    have same : u.pulseStore = s.pulseStore := by rw [State.pulseStore, State.pulseStore, hl, hp]
    rw [← same]
    exact execPulseOnce_stores hf hs (by rw [State.storeInRange, hl, hp, hb]; exact hr)
  have small : s.pulseStore = 0 ∨ s.pulseStore.toNat < 256 * s.cfgPeriod := by
    by_cases hl : s.cfgLevel = 0
    · exact .inl (if_pos hl)
    · have := (hr hl).2.1
      exact .inr (by rw [pulseStore_toNat hr, if_neg hl]; omega)
  obtain ⟨ph, m, cs, hrun, hm, hph, hnone, -⟩ := restarts_pulseOnce.run_ticksBetween k₀ k₁ k₂ hf hs
    (by simp [admission, hi]) store small ht hc ha
  exact ⟨ph, m, cs, hrun, hm, by rw [hph, pulseStore_toNat hr], hnone⟩

/-- Settles O59: `PULSE_ONCE` is a restart (`run_pulseOnce`). -/
theorem pulseOnceRunsToItsEnd : Obligations.PulseOnceRunsToItsEnd :=
  fun _ _ _ k₀ k₁ k₂ hf hs hi _ hr ht hc ha => run_pulseOnce k₀ k₁ k₂ hf hs hi hr ht hc ha

/-- A delivered tick's step, told by what it leaves (R170 to R179). -/
theorem step_frame_leaves (ha : s.agenda = .event tickWord :: rest) (hf : s.fault = .none) (hac : s.active = true)
    (hn : s.notify = true) (hr : s.storeInRange) :
    ∃ t, step s = .next t ∧ t.phase = nextPhase s.phase s.cfgPeriod ∧
      (t.active = false ↔ haltHits s.halt (waveIndex t.phase s.cfgPeriod) = true) ∧ t.notify = t.active ∧
      t.halt = s.halt ∧ t.responses = s.responses ∧
      t.out = s.out ++ (if t.active then [] else [.stop, .start .null]) ++
        enableAll (frameDuty s (waveIndex t.phase s.cfgPeriod) (BitVec.ofNat 16 s.cfgLevel)) := by
  refine ⟨_, step_frame ha hf hac hn hr, tickFrame_phase _ _, ?_⟩
  rw [tickFrame_phase]
  obtain ⟨hactive, hnotify, hout⟩ :=
    tickFrame_activity (s := { s with agenda := rest }) hac hn s.cfgPeriod (BitVec.ofNat 16 s.cfgLevel)
  exact ⟨hactive, hnotify, tickFrame_halt _ _, tickFrame_responses _ _, hout⟩

/-- The `2 * P` phases from `128 * P` on have index 64 (R174). -/
theorem index_64 {P m : Nat} (h : m < 2 * P) : (128 * P + m) % (256 * P) / (2 * P) = 64 := by
  rw [Nat.mod_eq_of_lt (by omega), Nat.div_eq_iff (by omega)]
  omega

/-- Settles O42: after `PULSE_ONCE` (`run_pulseOnce`) the block breathes under HALT_AT_ON, so the tick writes its frame
and halts exactly at index 64 (`step_frame_leaves`), which fewer than `2 * P` ticks keep (`index_64`). -/
theorem brightPulseHaltsOnItsFirstTick : Obligations.BrightPulseHaltsOnItsFirstTick := by
  intro s ws rest k₀ k₁ k₂ hf hs hi hl hr hc ha
  obtain ⟨ph, m, cs, hrun, hm, hph, hnone⟩ :=
    run_pulseOnce k₀ k₁ k₂ hf hs hi (fun _ => hr) (fun _ _ => hr) hc ha
  rw [if_neg (by omega)] at hph
  obtain ⟨-, h1, h2⟩ := id hr
  obtain ⟨t, tick, hphase, hactive, hnotify, hhalt, hresponses, hout⟩ := step_frame_leaves (s := { s with
    phase := ph, halt := .atOn, active := true, notify := true, commands := ws, agenda := .event tickWord :: rest
    out := s.out ++ cs ++ [.stop, .start .tick, .enableNotify], responses := s.responses ++ [0] }) rfl hf rfl rfl hr
  have hnext : t.phase.toNat = (128 * s.cfgPeriod + m + 1) % (256 * s.cfgPeriod) := by
    rw [hphase, nextPhase_toNat ph h1 h2, hph, Nat.mul_comm s.cfgPeriod, Nat.mod_add_mod]
  have hits : t.active = false ↔ t.phase.toNat / (2 * s.cfgPeriod) = 64 := by
    refine hactive.trans ((haltHits_waveIndex h1 (by rw [hphase]; exact nextPhase_lt ph h1 h2)).trans ?_)
    simp
  refine ⟨t, m, cs, ?_, hm, hnone, hnext, hits, fun hlt => ?_, hnotify, hhalt, hresponses, hout⟩
  · rw [show 5 + k₀ + k₁ + k₂ = 4 + k₀ + k₁ + k₂ + 1 by omega, run_add 1 hrun]
    exact run_one tick
  · rw [hits, hnext, Nat.add_assoc]
    exact index_64 hlt

end Sys2Proof.Machine
end

section
/-! PROOFS. The table of the FSM state (42_breathing_fsm.md R140), row by row: what completes each command, by cases on
the effects of its instruction. -/

namespace Sys2Proof.Machine

variable {s t : State} {i : Instr}

/-- A command that completes has not raised, was under way, and is done. -/
theorem completes_effect (h : completes i s t) :
    Effect s i t ∧ s.seq ≠ .idle ∧ t.seq = .idle ∧ ∀ c v, c ≠ .none → t ≠ s.raise c v := by
  obtain ⟨he, hbusy, hdone, hfault⟩ := h
  obtain ⟨hf, e⟩ := exec_effect he
  refine ⟨e, hbusy, hdone, ?_⟩
  rintro c v hc rfl
  simp [hf, hc] at hfault

/-- The FSM state is a function of ACTIVE and HALT (R28). -/
theorem breathing_congr (ha : t.active = s.active) (hh : t.halt = s.halt) : t.breathing = s.breathing := by
  rw [State.breathing, State.breathing, ha, hh]

theorem breathing_inactive : s.breathing = .inactive ↔ s.active = false := by
  unfold State.breathing
  cases s.active <;> cases s.halt <;> simp

theorem armed_breathing (r : Word) : (s.arm.finish r).breathing = match s.halt with
    | .none => .running
    | .atOn => .haltOn
    | .atOff => .haltOff := rfl

theorem breathing_of_armed_none (hh : s.halt = .none) : (s.arm.finish 0).breathing = .running := by
  rw [armed_breathing, hh]

theorem completes_enable (hi : s.Inv) (h : completes .enable s t) :
    t.breathing = .running ∧ t.out = s.out ++ [.stop, .start .tick, .enableNotify] := by
  obtain ⟨e, hbusy, hdone, hraise⟩ := completes_effect h
  cases e with
  | raised _ c v hc => exact absurd rfl (hraise c v hc)
  | enableAccepted hs => exact absurd hs hbusy
  | enableBody p hs =>
    cases p with
    | phase | halt => cases hdone
    | arm => exact ⟨breathing_of_armed_none (hi.legal_at hs), rfl⟩

theorem completes_pulseOnce (hi : s.Inv) (h : completes .pulseOnce s t) :
    t.breathing = .haltOn ∧ t.out = s.out ++ [.stop, .start .tick, .enableNotify] := by
  obtain ⟨e, hbusy, hdone, hraise⟩ := completes_effect h
  cases e with
  | raised _ c v hc => exact absurd rfl (hraise c v hc)
  | pulseAccepted hs => exact absurd hs hbusy
  | pulseOff | pulseOn | pulseHalt => cases hdone
  | pulseArm hs =>
    have mode : s.halt = .atOn := hi.legal_at hs
    exact ⟨by rw [armed_breathing, mode], rfl⟩

theorem pulseOnce_stores_phase (hs : s.seq = .pulseOnce .readLevel) (h : exec .pulseOnce s = .next t)
    (ht : t.fault = .none) : t.phase.toNat = if s.cfgLevel = 0 then 0 else 128 * s.cfgPeriod := by
  obtain ⟨hf, e⟩ := exec_effect h
  cases e with
  | raised _ c v hc => simp [hf, hc] at ht
  | pulseOff _ hl => rw [if_pos hl]; rfl
  | pulseOn _ h0 _ _ h2 => rw [if_neg h0]; exact pulsePhase_toNat h2
  | pulseAccepted hq | pulseHalt hq | pulseArm hq => rw [hs] at hq; cases hq

theorem completes_disable (hi : s.Inv) (h : completes .disable s t) : t.breathing = .inactive ∧
    ((s.seq = .disable (.body (.disable 4)) ∧ t.out = s.out ++ [.disableCh 4]) ∨
      ∃ L, s.seq = .disable (.body (.enable L)) ∧ t.out = s.out ++ enableAll (staticDuty s.bl L)) := by
  obtain ⟨e, hbusy, hdone, hraise⟩ := completes_effect h
  cases e with
  | raised _ c v hc => exact absurd rfl (hraise c v hc)
  | disableAccepted hs => exact absurd hs hbusy
  | disableDeactivate | disableLevel => cases hdone
  | disableBody p hs =>
    have inactive : s.active = false := (hi.legal_at hs).1
    obtain ⟨c, -, -, e⟩ | ⟨rfl, e⟩ | ⟨L, rfl, e⟩ := setBody_cases (s := s) p (fun p => .disable (.body p))
      (fun s => s.finish 0) <;> rw [e] at hdone ⊢
    · cases hdone
    · exact ⟨breathing_inactive.mpr inactive, .inl ⟨hs, rfl⟩⟩
    · exact ⟨breathing_inactive.mpr inactive, .inr ⟨L, hs, by rw [← staticFrame_inactive inactive]; rfl⟩⟩

theorem completes_reqSelfDisable (h : completes .reqSelfDisable s t) :
    t.active = s.active ∧ t.halt = (if s.cfgLevel = 0 then .atOff else .atOn) ∧
      t = { s with halt := t.halt, seq := .idle, responses := s.responses ++ [0] } := by
  obtain ⟨e, hbusy, -, hraise⟩ := completes_effect h
  cases e with
  | raised _ c v hc => exact absurd rfl (hraise c v hc)
  | reqAccepted hs => exact absurd hs hbusy
  | reqHalt hs hl => exact ⟨rfl, if_congr (level_eq_zero hl) rfl rfl, rfl⟩

/-- An instruction that writes neither HALT nor ACTIVE keeps the FSM state. -/
theorem exec_keeps_breathing (h : exec i s = .next t) (hw : (∃ L, i = .set L) ∨ i = .isActive ∨ ∃ v, i = .map v) :
    t.breathing = s.breathing := by
  have e := (exec_effect h).2
  refine breathing_congr ?_ ?_
  · by_contra ha
    have := e.activity_writer (by simp [ha])
    obtain ⟨L, rfl⟩ | rfl | ⟨v, rfl⟩ := hw <;> simp at this
  · by_contra hh
    have := e.halt_writer hh
    obtain ⟨L, rfl⟩ | rfl | ⟨v, rfl⟩ := hw <;> simp at this

theorem completes_initPorts (hi : s.Inv) (h : completes .initPorts s t) :
    if s.seq = .initPorts .readBreathing then s.cfgBreathing = false ∧ t.breathing = .inactive
    else s.seq = .initPorts (.enable .arm) ∧ t.breathing = .running := by
  obtain ⟨e, hbusy, hdone, hraise⟩ := completes_effect h
  cases e with
  | raised _ c v hc => exact absurd rfl (hraise c v hc)
  | started hs => exact absurd hs hbusy
  | initLevel | initBreathes => cases hdone
  | initBody p hs =>
    obtain ⟨c, -, -, e⟩ | ⟨-, e⟩ | ⟨L, -, e⟩ := setBody_cases (s := s) p (fun p => .initPorts (.body p))
      (fun s => s.goto (.initPorts .readBreathing)) <;> rw [e] at hdone <;> cases hdone
  | initEnds hs hb =>
    rw [if_pos hs]
    exact ⟨hb, breathing_inactive.mpr (hi.legal_at hs)⟩
  | initEnable p hs =>
    cases p with
    | phase | halt => cases hdone
    | arm =>
      rw [if_neg (by simp [hs])]
      exact ⟨hs, breathing_of_armed_none (hi.legal_at hs).2.2⟩

/-- A breathing block is initialised, so a second `INIT_PORTS` is turned away (R77). -/
theorem initPorts_while_active (hi : s.Inv) (hb : s.breathing ≠ .inactive) (hs : s.seq = .idle)
    (h : exec .initPorts s = .next t) : t.fault = .reinit := by
  have hinit : s.init = true := hi.activeInit (Bool.eq_true_of_not_eq_false fun ha => hb (breathing_inactive.mpr ha))
  have answer := exec_not_admitted (exec_effect h).1 hs (i := .initPorts) rfl (c := .reinit) (by simp [admission, hinit])
    (by decide)
  rw [Host.Outcome.next.inj (h.symm.trans answer)]

theorem tick_while_inactive (hb : s.breathing = .inactive) (h : exec .tick s = .next t) : t = s := by
  have hd : s.tickDeliverable = false := by simp [State.tickDeliverable, breathing_inactive.mp hb]
  exact Host.Outcome.next.inj (h.symm.trans (execTick_undelivered (exec_effect h).1 hd))

/-- The tick's row: INACTIVE exactly if the tick is delivered and its halt check holds (R175). -/
theorem tick_breathing (h : exec .tick s = .next t) (ht : t.fault = .none) :
    let idx := waveIndex (nextPhase s.phase s.cfgPeriod) s.cfgPeriod
    t.breathing = if s.tickDeliverable ∧ ((s.halt = .atOn ∧ idx = 64) ∨ (s.halt = .atOff ∧ idx = 127)) then .inactive
      else s.breathing := by
  intro idx
  obtain ⟨hd, rfl⟩ | ⟨hd, -, rfl⟩ := execTick_no_fault h ht
  · rw [if_neg (by simp [hd])]
  · by_cases hh : haltHits s.halt idx = true
    · rw [if_pos ⟨hd, haltHits_iff.mp hh⟩, tickFrame_halts _ hh]
      rfl
    · rw [if_neg fun k => hh (haltHits_iff.mpr k.2), tickFrame_goes_on _ hh]
      rfl

/-- Settles O58: one lemma per row; a raise writes neither ACTIVE nor HALT. -/
theorem fsmStateMovesAsTheTableSays : Obligations.FsmStateMovesAsTheTableSays := by
  refine fun s t hi => ⟨completes_enable hi, fun hs h => ?_, completes_pulseOnce hi, pulseOnce_stores_phase,
    completes_disable hi, completes_reqSelfDisable, fun i hw h => exec_keeps_breathing h hw, completes_initPorts hi,
    initPorts_while_active hi, tick_while_inactive, tick_breathing, fun i h ht => ?_⟩
  · rw [Host.Outcome.next.inj (h.symm.trans (execEnable_body (exec_effect h).1 hs))]
    rfl
  · obtain ⟨c, v, -, rfl, -⟩ := exec_raised h ht
    rfl

end Sys2Proof.Machine
end

section
/-! PROOFS. PHASE and HALT of an inactive block (10_state.md R41) as a simulation: two states that differ in them alone
take the same steps, and before a command arms it has stored both, so the difference is gone before it could be seen.
-/

namespace Sys2Proof.Machine

variable {s t : State} {i : Instr} {p : Half} {h : HaltMode}

/-- The same state with another PHASE and HALT: no move of the machine, but the state the simulation compares with. -/
def State.hide (s : State) (p : Half) (h : HaltMode) : State := { s with phase := p, halt := h }

@[simp] theorem State.hide_seq : (s.hide p h).seq = s.seq := rfl
@[simp] theorem State.hide_commands : (s.hide p h).commands = s.commands := rfl
@[simp] theorem State.hide_agenda : (s.hide p h).agenda = s.agenda := rfl

/-- The points between a command's phase store and its halt store (R143, R144). -/
def Seq.atHaltStore : Seq → Bool
  | .idle => false
  | .initPorts (.enable .halt) => true
  | .initPorts _ => false
  | .set _ => false
  | .enable .halt => true
  | .enable _ => false
  | .pulseOnce .halt => true
  | .pulseOnce _ => false
  | .disable _ => false
  | .reqSelfDisable => false

/-- A point at which neither has been stored for an arm to come. -/
def Seq.Plain (q : Seq) : Prop := q.atArm = false ∧ q.atHaltStore = false

/-- `s.hide p h` cannot be told from `s`: the block is inactive, and what the command under way has stored is as in
`s`. -/
structure Hidden (s : State) (p : Half) (h : HaltMode) : Prop where
  inactive : s.active = false
  notAtArm : s.seq.atArm = false
  stored : s.seq.atHaltStore = true → p = s.phase

theorem Hidden.of_plain (ha : s.active = false) (hq : s.seq.Plain) : Hidden s p h where
  inactive := ha
  notAtArm := hq.1
  stored k := by simp [hq.2] at k

/-- Two results that cannot be told apart. -/
inductive Alike : Result → Result → Prop where
  | same (r : Result) : Alike r r
  | hidden {s : State} {p : Half} {h : HaltMode} (hid : Hidden s p h) : Alike (.next s) (.next (s.hide p h))

/-- The next state is hidden again, and what is put in was carried along. -/
theorem Alike.next {t' : State} {p' : Half} {h' : HaltMode} (hid : Hidden t p' h') (ht : t' = t.hide p' h') :
    Alike (.next t) (.next t') := ht ▸ .hidden hid

/-! ## The shared operations -/

theorem running_alike {k : State → Result} (hk : Alike (k s) (k (s.hide p h))) :
    Alike (running s k) (running (s.hide p h) k) := by
  by_cases hf : s.fault = .none
  · rw [running_of hf, running_of (s := s.hide p h) hf]
    exact hk
  · rw [running_faulted hf, running_faulted (s := s.hide p h) hf]
    exact .same _

theorem raise_alike (hid : Hidden s p h) (c : FaultCode) (v : Word) :
    Alike (.next (s.raise c v)) (.next ((s.hide p h).raise c v)) :=
  .next (p' := p) (h' := h) (.of_plain hid.inactive ⟨rfl, rfl⟩) rfl

theorem accept_alike {first : State → State} (hid : Hidden s p h)
    (hf : Alike (.next (first s)) (.next (first (s.hide p h)))) :
    Alike (accept i s first) (accept i (s.hide p h) first) := by
  have same : admission i (s.hide p h) = admission i s := admission_congr rfl rfl i
  unfold accept
  rw [same]
  split
  · exact hf
  · exact raise_alike hid _ _

theorem withLevel_alike {k k' : Half → Result} (hid : Hidden s p h) (hk : ∀ level, Alike (k level) (k' level)) :
    Alike (withLevel s k) (withLevel (s.hide p h) k') := by
  show Alike (if s.bl.toNat < s.cfgLevel then _ else _) (if s.bl.toNat < s.cfgLevel then _ else _)
  split_ifs
  · exact raise_alike hid _ _
  · exact hk _

theorem withPeriod_alike {k k' : Nat → Result} (hid : Hidden s p h) (hk : ∀ period, Alike (k period) (k' period)) :
    Alike (withPeriod s k) (withPeriod (s.hide p h) k') := by
  show Alike (if s.cfgPeriod < 1 ∨ 256 < s.cfgPeriod then _ else _) (if s.cfgPeriod < 1 ∨ 256 < s.cfgPeriod then _ else _)
  split_ifs
  · exact raise_alike hid _ _
  · exact hk _

/-- A move of SEQ to a plain point. -/
theorem goto_alike (ha : s.active = false) {q : Seq} (hq : q.Plain) :
    Alike (.next (s.goto q)) (.next ((s.hide p h).goto q)) :=
  .next (p' := p) (h' := h) (.of_plain ha hq) rfl

/-- A command's end, but for an arm's. -/
theorem finish_alike (ha : s.active = false) (r : Word) :
    Alike (.next (s.finish r)) (.next ((s.hide p h).finish r)) :=
  .next (p' := p) (h' := h) (.of_plain ha ⟨rfl, rfl⟩) rfl

theorem setBody_alike (b : BodyPoint) {resume : BodyPoint → Seq} {done : State → State} (ha : s.active = false)
    (hr : ∀ c, (resume (.disable c)).Plain)
    (hd : ∀ u : State, u.active = false → Alike (.next (done u)) (.next (done (u.hide p h)))) :
    Alike (.next (setBody b resume done s)) (.next (setBody b resume done (s.hide p h))) := by
  cases b with
  | disable c =>
    simp only [setBody]
    split
    · exact hd (s.emit [.disableCh c]) ha
    · exact goto_alike (s := s.emit [.disableCh c]) ha (hr _)
  | enable level => exact hd (s.emit (staticFrame s level)) ha

/-- The phase store puts the same phase in both. -/
theorem setPhase_alike (ha : s.active = false) (v : Half) {q : Seq} (hq : q.atArm = false) :
    Alike (.next ((s.setPhase v).goto q)) (.next (((s.hide p h).setPhase v).goto q)) :=
  .next (p' := v) (h' := h) ⟨ha, hq, fun _ => rfl⟩ rfl

/-- The halt store takes the last difference away. -/
theorem setHalt_alike (hp : p = s.phase) (m : HaltMode) (q : Seq) :
    Alike (.next ((s.setHalt m).goto q)) (.next (((s.hide p h).setHalt m).goto q)) := by
  subst hp
  exact .same _

theorem enableBody_alike (e : EnablePoint) {resume : EnablePoint → Seq} (hid : Hidden s p h) (hs : s.seq = resume e)
    (hhalt : (resume .halt).atArm = false ∧ (resume .halt).atHaltStore = true) (harm : (resume .arm).atArm = true) :
    Alike (.next (enableBody e resume s)) (.next (enableBody e resume (s.hide p h))) := by
  cases e with
  | phase => exact setPhase_alike hid.inactive 0 hhalt.1
  | halt => exact setHalt_alike (hid.stored (hs ▸ hhalt.2)) .none _
  | arm => exact absurd (hs ▸ hid.notAtArm) (by simp [harm])

/-! ## Every instruction -/

theorem firstStep_alike (hid : Hidden s p h) (i : Instr) :
    Alike (.next (Instr.firstStep i s)) (.next (Instr.firstStep i (s.hide p h))) := by
  cases i with
  | initPorts => exact goto_alike (s := s.startUp) rfl ⟨rfl, rfl⟩
  | isActive => exact finish_alike hid.inactive _
  | map v => exact finish_alike hid.inactive _
  | tick => exact .hidden hid
  | _ => exact goto_alike hid.inactive ⟨rfl, rfl⟩

theorem pulseStart_alike (hid : Hidden s p h) : Alike (pulseStart s) (pulseStart (s.hide p h)) :=
  withLevel_alike hid fun level => by
    split_ifs
    · exact setPhase_alike hid.inactive 0 rfl
    · exact withPeriod_alike hid fun period => setPhase_alike hid.inactive (pulsePhase period) rfl

/-- Acceptance, whichever command is accepted. -/
theorem accepted_alike (hid : Hidden s p h) (i : Instr) :
    Alike (accept i s (Instr.firstStep i)) (accept i (s.hide p h) (Instr.firstStep i)) :=
  accept_alike hid (firstStep_alike hid i)

theorem execSet_alike (hid : Hidden s p h) (level : Half) : Alike (execSet level s) (execSet level (s.hide p h)) :=
  running_alike <| by
    simp only [State.hide_seq]
    cases s.seq with
    | idle => exact accepted_alike hid (.set level)
    | set b =>
      dsimp only
      split_ifs
      · exact setBody_alike b hid.inactive (fun _ => ⟨rfl, rfl⟩) fun _ hu => finish_alike hu 0
      · exact .same _
    | _ => exact .same _

theorem execEnable_alike (hid : Hidden s p h) : Alike (execEnable s) (execEnable (s.hide p h)) :=
  running_alike <| by
    simp only [State.hide_seq]
    cases hs : s.seq with
    | idle => exact accepted_alike hid .enable
    | enable e => exact enableBody_alike e hid hs ⟨rfl, rfl⟩ rfl
    | _ => exact .same _

theorem execPulseOnce_alike (hid : Hidden s p h) : Alike (execPulseOnce s) (execPulseOnce (s.hide p h)) :=
  running_alike <| by
    simp only [State.hide_seq]
    cases hs : s.seq with
    | idle => exact accepted_alike hid .pulseOnce
    | pulseOnce q =>
      cases q with
      | readLevel => exact pulseStart_alike hid
      | halt => exact setHalt_alike (hid.stored (by rw [hs]; rfl)) .atOn _
      | arm => exact absurd hid.notAtArm (by rw [hs]; decide)
    | _ => exact .same _

theorem execDisable_alike (hid : Hidden s p h) : Alike (execDisable s) (execDisable (s.hide p h)) :=
  running_alike <| by
    simp only [State.hide_seq]
    cases s.seq with
    | idle => exact accepted_alike hid .disable
    | disable q =>
      cases q with
      | deactivate => exact goto_alike (s := s.deactivate) rfl ⟨rfl, rfl⟩
      | readLevel => exact withLevel_alike hid fun _ => goto_alike hid.inactive ⟨rfl, rfl⟩
      | body b => exact setBody_alike b hid.inactive (fun _ => ⟨rfl, rfl⟩) fun _ hu => finish_alike hu 0
    | _ => exact .same _

theorem execReqSelfDisable_alike (hid : Hidden s p h) :
    Alike (execReqSelfDisable s) (execReqSelfDisable (s.hide p h)) :=
  running_alike <| by
    simp only [State.hide_seq]
    cases s.seq with
    | idle => exact accepted_alike hid .reqSelfDisable
    | reqSelfDisable =>
      exact withLevel_alike hid fun level =>
        .next (p' := p) (h' := haltFor level) (.of_plain hid.inactive ⟨rfl, rfl⟩) rfl
    | _ => exact .same _

theorem execIsActive_alike (hid : Hidden s p h) : Alike (execIsActive s) (execIsActive (s.hide p h)) :=
  running_alike <| by
    simp only [State.hide_seq]
    cases s.seq with
    | idle => exact accepted_alike hid .isActive
    | _ => exact .same _

theorem execMap_alike (hid : Hidden s p h) (v : Half) : Alike (execMap v s) (execMap v (s.hide p h)) :=
  running_alike <| by
    simp only [State.hide_seq]
    cases s.seq with
    | idle => exact accepted_alike hid (.map v)
    | _ => exact .same _

theorem execInitPorts_alike (hid : Hidden s p h) : Alike (execInitPorts s) (execInitPorts (s.hide p h)) :=
  running_alike <| by
    simp only [State.hide_seq]
    cases hs : s.seq with
    | idle => exact accepted_alike hid .initPorts
    | initPorts q =>
      cases q with
      | readLevel => exact withLevel_alike hid fun _ => goto_alike hid.inactive ⟨rfl, rfl⟩
      | body b =>
        exact setBody_alike b hid.inactive (fun _ => ⟨rfl, rfl⟩) fun _ hu => goto_alike hu ⟨rfl, rfl⟩
      | readBreathing =>
        show Alike (.next (if s.cfgBreathing then _ else _)) (.next (if s.cfgBreathing then _ else _))
        split_ifs
        · exact goto_alike hid.inactive ⟨rfl, rfl⟩
        · exact finish_alike hid.inactive 0
      | enable e => exact enableBody_alike e hid hs ⟨rfl, rfl⟩ rfl
    | _ => exact .same _

/-- An inactive block's tick is not delivered. -/
theorem execTick_alike (hid : Hidden s p h) : Alike (execTick s) (execTick (s.hide p h)) :=
  running_alike <| by
    have undelivered : s.tickDeliverable = false := by simp [State.tickDeliverable, hid.inactive]
    rw [show (s.hide p h).tickDeliverable = s.tickDeliverable from rfl, undelivered]
    exact .hidden hid

theorem exec_alike (hid : Hidden s p h) (i : Instr) : Alike (exec i s) (exec i (s.hide p h)) := by
  cases i with
  | initPorts => exact execInitPorts_alike hid
  | set level => exact execSet_alike hid level
  | enable => exact execEnable_alike hid
  | pulseOnce => exact execPulseOnce_alike hid
  | disable => exact execDisable_alike hid
  | reqSelfDisable => exact execReqSelfDisable_alike hid
  | isActive => exact execIsActive_alike hid
  | map v => exact execMap_alike hid v
  | tick => exact execTick_alike hid

/-! ## Every step -/

/-- Hiding asks nothing of the outside world's lists. -/
theorem Hidden.takeCommand (hid : Hidden s p h) : Hidden s.takeCommand p h := ⟨hid.inactive, hid.notAtArm, hid.stored⟩

theorem Hidden.takeMove (hid : Hidden s p h) : Hidden s.takeMove p h :=
  ⟨by simpa using hid.inactive, by simpa using hid.notAtArm, by simpa using hid.stored⟩

theorem takeMove_hide : (s.hide p h).takeMove = s.takeMove.hide p h := by
  simp only [State.takeMove, State.hide_agenda]
  cases s.agenda <;> rfl

theorem acceptWord_alike (hid : Hidden s p h) (w : Word) : Alike (acceptWord w s) (acceptWord w (s.hide p h)) := by
  unfold acceptWord
  cases decodeCommand w with
  | instr i => exact exec_alike hid i
  | rejected e => exact raise_alike hid _ _

theorem foreground_alike (hid : Hidden s p h) : Alike (foreground s) (foreground (s.hide p h)) := by
  simp only [foreground, State.hide_seq, State.hide_commands]
  cases s.seq.instr with
  | some i => exact exec_alike hid i
  | none =>
    cases s.commands with
    | nil => exact .hidden hid
    | cons w ws => exact acceptWord_alike hid.takeCommand w

theorem deliver_alike (hid : Hidden s p h) (w : Word) : Alike (deliver w s) (deliver w (s.hide p h)) := by
  unfold deliver
  cases decodeEvent w with
  | instr i => exact exec_alike hid i
  | rejected e => exact .hidden hid

theorem move_alike (hid : Hidden s p h) (m : Move) : Alike (move m s) (move m (s.hide p h)) := by
  cases m with
  | foreground => exact running_alike (foreground_alike hid)
  | event w => exact running_alike (deliver_alike hid w)
  | drive w => exact .next (p' := p) (h' := h) ⟨hid.inactive, hid.notAtArm, hid.stored⟩ rfl
  | store l q b => exact .next (p' := p) (h' := h) ⟨hid.inactive, hid.notAtArm, hid.stored⟩ rfl
  | powerOn => exact .same _

theorem step_alike (hid : Hidden s p h) : Alike (step s) (step (s.hide p h)) := by
  show Alike (move s.nextMove s.takeMove) (move s.nextMove (s.hide p h).takeMove)
  rw [takeMove_hide]
  exact move_alike hid.takeMove _

theorem run_alike (n : Nat) (hid : Hidden s p h) : Alike (run n s) (run n (s.hide p h)) := by
  induction n generalizing s p h with
  | zero => exact .hidden hid
  | succ n ih =>
    have next := step_alike hid
    rw [run_succ, run_succ]
    generalize step s = r, step (s.hide p h) = r' at next
    cases next with
    | same => exact .same _
    | hidden hid => exact ih hid

theorem Alike.observe_eq {r r' : Result} (a : Alike r r') : observe r = observe r' := by
  cases a with
  | same => rfl
  | hidden => rfl

/-- Settles O56: an idle point is plain, so the difference is hidden, and runs keep it so (`run_alike`). -/
theorem hiddenPhaseAndHaltAreUnobservable : Obligations.HiddenPhaseAndHaltAreUnobservable :=
  fun s _ _ n ha hs => (run_alike n (.of_plain ha (by rw [hs]; exact ⟨rfl, rfl⟩))).observe_eq

end Sys2Proof.Machine
end
